-- ==== Sys2Proof/Word.lean ====
section
/-! DEFINITION. The machine's word and byte. -/

namespace Sys2Proof

/-- One byte. -/
abbrev Byte := BitVec 8

/-- The carrier of an XLEN-bit value. XLEN is 32 or 64 (00_scope.md P1): a value of a 32-bit hart is held
zero-extended, and every write goes through `Machine.trunc` (notes/assumptions/2.md, DESIGN CHOICE). -/
abbrev Word := BitVec 64

end Sys2Proof
end

