-- ==== Sys2Proof/Syntax.lean ====
section
/-! DEFINITION. The nine instructions of spec/opcode_table.json, one constructor a row (30_encoding.md R99). -/

namespace Sys2Proof

/-- The number of a general register (10_state.md R56). -/
abbrev Reg := Fin 32

/-- A CSR address: 12 bits, naming a whole register (20_memory.md R70). -/
abbrev CsrAddr := BitVec 12

/-- The 5-bit unsigned immediate of the immediate forms (30_encoding.md R98). -/
abbrev Uimm := BitVec 5

/-- The Core Debug Registers (10_state.md R10). -/
inductive DebugCsr where
  | dcsr
  | dpc
  | dscratch0
  | dscratch1
deriving DecidableEq, Repr, Inhabited

/-- The instructions of the opcode table. -/
inductive Instr where
  /-- `csrrw rd, csr, rs1` (40_csr_access.md R116). -/
  | csrrw (rd : Reg) (csr : CsrAddr) (rs1 : Reg)
  /-- `csrrs rd, csr, rs1` (R117). -/
  | csrrs (rd : Reg) (csr : CsrAddr) (rs1 : Reg)
  /-- `csrrc rd, csr, rs1` (R118). -/
  | csrrc (rd : Reg) (csr : CsrAddr) (rs1 : Reg)
  /-- `csrrwi rd, csr, uimm` (R119). -/
  | csrrwi (rd : Reg) (csr : CsrAddr) (uimm : Uimm)
  /-- `csrrsi rd, csr, uimm` (R120). -/
  | csrrsi (rd : Reg) (csr : CsrAddr) (uimm : Uimm)
  /-- `csrrci rd, csr, uimm` (R121). -/
  | csrrci (rd : Reg) (csr : CsrAddr) (uimm : Uimm)
  /-- `ebreak` (41_ebreak.md R131). -/
  | ebreak
  /-- `c.ebreak` (41_ebreak.md R132). -/
  | cEbreak
  /-- `dret` (42_dret.md R140). -/
  | dret
deriving DecidableEq, Repr, Inhabited

end Sys2Proof
end

