-- ==== Sys2Proof/WellFormed.lean ====
section
/-! DEFINITION. Which instruction terms are instructions of this spec: the column "constraint" of
spec/opcode_table.json. -/

namespace Sys2Proof

/-- The CSR address is one of 0x7b0 to 0x7b3 (30_encoding.md R99). -/
def CsrAddr.ofThisSpec (a : CsrAddr) : Bool := decide (0x7b0#12 ≤ a ∧ a ≤ 0x7b3#12)

/-- The instruction is within this spec: a CSR instruction names one of the four registers (30_encoding.md R99). -/
def Instr.wellFormed : Instr → Bool
  | .csrrw _ csr _ => CsrAddr.ofThisSpec csr
  | .csrrs _ csr _ => CsrAddr.ofThisSpec csr
  | .csrrc _ csr _ => CsrAddr.ofThisSpec csr
  | .csrrwi _ csr _ => CsrAddr.ofThisSpec csr
  | .csrrsi _ csr _ => CsrAddr.ofThisSpec csr
  | .csrrci _ csr _ => CsrAddr.ofThisSpec csr
  | .ebreak => true
  | .cEbreak => true
  | .dret => true

end Sys2Proof
end

