-- ==== Sys2Proof/Decode.lean ====
section
/-! DEFINITION. Decoding bytes into an instruction, total and rejecting by name (30_encoding.md R95 to R99), and after
it the encoder. -/

namespace Sys2Proof

/-- Why bytes are not one of the nine instructions. Outside this file each reason means the same: the encoding is the
base hart's (30_encoding.md R99). -/
inductive NotDecoded where
  /-- Fewer bytes than the instruction's length. -/
  | truncated
  /-- A 16-bit instruction other than `c.ebreak`. -/
  | otherCompressed
  /-- Bits 4:2 are 111: neither a 16-bit nor a 32-bit instruction (R95). -/
  | otherLength
  /-- A 32-bit instruction outside the SYSTEM major opcode. -/
  | otherOpcode
  /-- SYSTEM, funct3 0, and neither `ebreak` nor `dret`. -/
  | otherSystem
  /-- SYSTEM, funct3 4: "not an instruction of this spec". -/
  | funct3Four
deriving DecidableEq, Repr, Inhabited

/-- The length in bytes of the instruction whose lowest 16 bits are given; none where R95 names no length. DESIGN CHOICE
(notes/assumptions/40.md): on a hart with IALIGN 32 too, where the spec does not say what bits 1:0 other than 11 make. -/
def parcelLength (p : BitVec 16) : Option Nat :=
  if p.extractLsb' 0 2 ≠ 0b11#2 then some 2
  else if p.extractLsb' 2 3 ≠ 0b111#3 then some 4
  else none

/-- The 16-bit parcel of two bytes, the lower address first (R95). -/
def parcelOf (b0 b1 : Byte) : BitVec 16 := b0.setWidth 16 ||| (b1.setWidth 16 <<< 8)

/-- The 32-bit word of four bytes, the lowest address first (R95). -/
def wordOf (b0 b1 b2 b3 : Byte) : BitVec 32 :=
  b0.setWidth 32 ||| (b1.setWidth 32 <<< 8) ||| (b2.setWidth 32 <<< 16) ||| (b3.setWidth 32 <<< 24)

/-- The length in bytes of the instruction that begins these bytes; none where it cannot be told. -/
def instrLength : List Byte → Option Nat
  | b0 :: b1 :: _ => parcelLength (parcelOf b0 b1)
  | _ => none

/-- Decode a 32-bit instruction word (R96, R98, R99). -/
def decodeWord (w : BitVec 32) : Except NotDecoded Instr :=
  if w.extractLsb' 0 7 ≠ 0b1110011#7 then .error .otherOpcode
  else
    let rd : Reg := (w.extractLsb' 7 5).toFin
    let rs1 : Reg := (w.extractLsb' 15 5).toFin
    let uimm : Uimm := w.extractLsb' 15 5
    let csr : CsrAddr := w.extractLsb' 20 12
    match (w.extractLsb' 12 3).toNat with
    | 1 => .ok (.csrrw rd csr rs1)
    | 2 => .ok (.csrrs rd csr rs1)
    | 3 => .ok (.csrrc rd csr rs1)
    | 4 => .error .funct3Four
    | 5 => .ok (.csrrwi rd csr uimm)
    | 6 => .ok (.csrrsi rd csr uimm)
    | 7 => .ok (.csrrci rd csr uimm)
    | _ =>
      if w = 0x00100073 then .ok .ebreak
      else if w = 0x7b200073 then .ok .dret
      else .error .otherSystem

/-- Decode a 16-bit instruction (R97, R99). -/
def decodeParcel (p : BitVec 16) : Except NotDecoded Instr :=
  if p = 0x9002 then .ok .cEbreak else .error .otherCompressed

/-- Decode the instruction that begins these bytes, the lowest address first (R95, little-endian); the rest of the
bytes beside it. -/
def decode (bytes : List Byte) : Except NotDecoded (Instr × List Byte) :=
  match bytes with
  | b0 :: b1 :: rest =>
    match parcelLength (parcelOf b0 b1) with
    | some 2 => (decodeParcel (parcelOf b0 b1)).map fun i => (i, rest)
    | some _ =>
      match rest with
      | b2 :: b3 :: rest' => (decodeWord (wordOf b0 b1 b2 b3)).map fun i => (i, rest')
      | _ => .error .truncated
    | none => .error .otherLength
  | _ => .error .truncated

/-- The length of the instruction in bytes (30_encoding.md R95). -/
def Instr.length : Instr → Nat
  | .csrrw _ _ _ => 4
  | .csrrs _ _ _ => 4
  | .csrrc _ _ _ => 4
  | .csrrwi _ _ _ => 4
  | .csrrsi _ _ _ => 4
  | .csrrci _ _ _ => 4
  | .ebreak => 4
  | .cEbreak => 2
  | .dret => 4

/-- The I-type word (R96). -/
def iType (csr : CsrAddr) (rs1 : BitVec 5) (funct3 : BitVec 3) (rd : Reg) : BitVec 32 :=
  (csr.setWidth 32 <<< 20) ||| (rs1.setWidth 32 <<< 15) ||| (funct3.setWidth 32 <<< 12) |||
  ((BitVec.ofFin rd : BitVec 5).setWidth 32 <<< 7) ||| 0b1110011#32

/-- The word of an instruction; a 16-bit instruction in the low half (R97, R99). -/
def encodeWord : Instr → BitVec 32
  | .csrrw rd csr rs1 => iType csr (BitVec.ofFin rs1) 1 rd
  | .csrrs rd csr rs1 => iType csr (BitVec.ofFin rs1) 2 rd
  | .csrrc rd csr rs1 => iType csr (BitVec.ofFin rs1) 3 rd
  | .csrrwi rd csr uimm => iType csr uimm 5 rd
  | .csrrsi rd csr uimm => iType csr uimm 6 rd
  | .csrrci rd csr uimm => iType csr uimm 7 rd
  | .ebreak => iType 0x001 0 0 0
  | .cEbreak => 0x9002
  | .dret => iType 0x7b2 0 0 0

/-- The match and mask of an instruction in the opcode map (30_encoding.md R99). -/
def matchMask : Instr → BitVec 32 × BitVec 32
  | .csrrw _ _ _ => (0x00001073, 0x0000707f)
  | .csrrs _ _ _ => (0x00002073, 0x0000707f)
  | .csrrc _ _ _ => (0x00003073, 0x0000707f)
  | .csrrwi _ _ _ => (0x00005073, 0x0000707f)
  | .csrrsi _ _ _ => (0x00006073, 0x0000707f)
  | .csrrci _ _ _ => (0x00007073, 0x0000707f)
  | .ebreak => (0x00100073, 0xffffffff)
  | .cEbreak => (0x9002, 0xffff)
  | .dret => (0x7b200073, 0xffffffff)

/-- The first `n` bytes of a word, least significant first. -/
def wordBytes (w : BitVec 32) : Nat → List Byte
  | 0 => []
  | n + 1 => w.extractLsb' 0 8 :: wordBytes (w >>> 8) n

/-- The bytes of an instruction as they lie in memory, the lowest address first (R95). -/
def encode (i : Instr) : List Byte := wordBytes (encodeWord i) i.length

/-- The bytes the host's numbering of an instruction stands for: `w` in `nbits` bits, zeros above, up to the longest
instruction. -/
def tableBytes (nbits w : Nat) : List Byte :=
  wordBytes (BitVec.ofNat 32 (w % 2 ^ nbits)) 4

/-- What the decoder reads from an instruction whose bits are `w` (the host's fixed name). -/
def decodeTableWord (nbits w : Nat) : Option Instr :=
  match decode (tableBytes nbits w) with
  | .ok (i, _) => some i
  | .error _ => none

end Sys2Proof
end

