-- ==== Sys2Proof/Machine/BaseHart.lean ====
section
/-! DEFINITION. The base hart's data: the state it supplies (00_scope.md R3), what it is shown when it executes an
instruction or takes a trap, and what it answers. Its behaviour is a parameter: opaque constants in Config. -/

namespace Sys2Proof.Machine

/-- Memory as (address, byte) pairs, addresses strictly rising (`Memory.wf`). An unlisted address has no value
(notes/assumptions/11.md, DESIGN CHOICE). -/
abbrev Memory := List Host.Cell

/-- The registers a trap saves into, of one mode: the exception PC, the exception cause and the trap value register
(41_ebreak.md R133). -/
structure TrapRegs where
  epc   : Word := 0
  cause : Word := 0
  tval  : Word := 0
deriving DecidableEq, Repr, Inhabited

/-- A mode that can take a trap: M, S (HS where there is virtualization) or VS. -/
inductive TrapMode where
  | m
  | s
  | vs
deriving DecidableEq, Repr, Inhabited

/-- The two exceptions this spec hands to the base hart: the `cause` of `TakeTrap(cause, info)`, and with each its `info`
(00_scope.md R3). -/
inductive Exc where
  /-- `IllegalInstruction(instr)` (40_csr_access.md R111, 42_dret.md R141): the bytes of the instruction, the lowest address
  first. -/
  | illegalInstruction (instr : List Byte)
  /-- `Breakpoint(a)` (41_ebreak.md R131, R133): the address of the `ebreak`. -/
  | breakpoint (addr : Word)
deriving DecidableEq, Repr, Inhabited

/-- The base hart's state as far as the debug layer reads or writes it (00_scope.md R3, 10_state.md R55 to R57), and
`other`, whatever else it holds, which the debug layer never touches. -/
structure Base where
  /-- The general registers (R56). -/
  x             : Vector Word 32
  /-- The program counter (R55). -/
  pc            : Word
  /-- The privilege mode, 30_encoding.md R94 (R55). -/
  priv          : BitVec 2
  /-- The virtualization mode (R55). -/
  virt          : Bool
  /-- `mstatus.MPRV` (20_memory.md R74). -/
  mprv          : Bool
  /-- `mstatus.MPP` (20_memory.md R74). -/
  mpp           : BitVec 2
  /-- The trap registers of M-mode. -/
  trapM         : TrapRegs
  /-- The trap registers of S-mode. -/
  trapS         : TrapRegs
  /-- The trap registers of VS-mode. -/
  trapVS        : TrapRegs
  /-- The `cycle` counter (R57). -/
  cycle         : Nat
  /-- The `instret` counter (R57). -/
  instret       : Nat
  /-- The other hart-local counters (R57). -/
  localCounters : List Nat
  /-- Instruction and data memory (20_memory.md R72). -/
  mem           : Memory
  /-- What else the base hart holds. -/
  other         : List Word
deriving DecidableEq, Repr, Inhabited

/-- What the debug layer shows the base hart when it executes an instruction. -/
structure BaseCtx where
  /-- The bytes of the instruction, as far as they could be fetched. -/
  bytes         : List Byte
  /-- The hart is in Debug Mode (the instruction comes from the Program Buffer). -/
  debugMode     : Bool
  /-- The privilege the instruction executes with (20_memory.md R73, 60_exceptions.md R183). -/
  execPriv      : BitVec 2
  /-- The virtualization mode the instruction executes with (60_exceptions.md R183, 30_encoding.md R94). -/
  execVirt      : Bool
  /-- The effective `MPRV` of its loads and stores (20_memory.md R74). -/
  effectiveMprv : Bool
  /-- The privilege its loads and stores are made with (20_memory.md R74). -/
  memPriv       : BitVec 2
  /-- The value of the `time` CSR (60_exceptions.md R191). -/
  time          : Nat
deriving DecidableEq, Repr, Inhabited

/-- Where an instruction leaves `pc`: it does not change program flow, or it names the address of what follows
(10_state.md R55). -/
inductive Flow where
  | fallThrough
  | goTo (target : Word)
deriving DecidableEq, Repr, Inhabited

/-- What the base hart does in one instruction, trap, interrupt or reset. `applyEffect` puts it into the state, held to
what the spec says of every base hart. -/
structure BaseEffect where
  x            : Vector Word 32
  flow         : Flow
  /-- The successor where the flow falls through an instruction whose length is not known. -/
  successor    : Word
  priv         : BitVec 2
  virt         : Bool
  mprv         : Bool
  mpp          : BitVec 2
  trapM        : TrapRegs
  trapS        : TrapRegs
  trapVS       : TrapRegs
  /-- Bytes stored, in order. -/
  stores       : List (Word × Byte)
  /-- Explicit writes to the counters (60_exceptions.md R190: not affected by the freezing). -/
  writeCycle   : Option Nat
  writeInstret : Option Nat
  writeLocal   : Option (List Nat)
  other        : List Word
  /-- The instruction retired. -/
  retired      : Bool
  /-- The instruction raised an exception (read in Debug Mode only, 60_exceptions.md R184). -/
  excepted     : Bool
deriving DecidableEq, Repr, Inhabited

/-- What of a trap the base hart decides: the mode that takes it, the handler's address, and the state this spec says
nothing about (notes/assumptions/9.md). -/
structure TrapEntry where
  mode    : TrapMode
  handler : Word
  /-- The trap value of an exception whose value the spec does not state. -/
  tval    : Word
  mprv    : Bool
  mpp     : BitVec 2
  other   : List Word
deriving DecidableEq, Repr, Inhabited

end Sys2Proof.Machine
end

