-- ==== Sys2Proof/Machine/Layout.lean ====
section
/-! DEFINITION. Where the fields of `dcsr` stand (00_scope.md P26): the layout as data, the default layout, and a layout's
legality. -/

namespace Sys2Proof.Machine

/-- P26 `DCSR_LAYOUT`: the position of the least significant bit of every field of `dcsr`. -/
structure DcsrLayout where
  debugver  : Nat
  ebreakvs  : Nat
  ebreakvu  : Nat
  ebreakm   : Nat
  ebreaks   : Nat
  ebreaku   : Nat
  stepie    : Nat
  stopcount : Nat
  stoptime  : Nat
  cause     : Nat
  v         : Nat
  mprven    : Nat
  nmip      : Nat
  step      : Nat
  prv       : Nat
deriving DecidableEq, Repr, Inhabited

/-- The layout of Debug Specification 1.0 (10_state.md R29). -/
def DcsrLayout.standard : DcsrLayout :=
  { debugver := 28, ebreakvs := 17, ebreakvu := 16, ebreakm := 15, ebreaks := 13, ebreaku := 12, stepie := 11
    stopcount := 10, stoptime := 9, cause := 6, v := 5, mprven := 4, nmip := 3, step := 2, prv := 0 }

/-- The fields of a layout as (least significant bit, width). -/
def DcsrLayout.fields (l : DcsrLayout) : List (Nat × Nat) :=
  [(l.debugver, 4), (l.ebreakvs, 1), (l.ebreakvu, 1), (l.ebreakm, 1), (l.ebreaks, 1), (l.ebreaku, 1), (l.stepie, 1),
   (l.stopcount, 1), (l.stoptime, 1), (l.cause, 3), (l.v, 1), (l.mprven, 1), (l.nmip, 1), (l.step, 1), (l.prv, 2)]

/-- A layout places every field inside the 32 significant bits (10_state.md R31), no two fields overlapping. -/
def DcsrLayout.wf (l : DcsrLayout) : Bool :=
  l.fields.all (fun f => decide (f.1 + f.2 ≤ 32)) &&
  decide (l.fields.Pairwise fun f g => f.1 + f.2 ≤ g.1 ∨ g.1 + g.2 ≤ f.1)

end Sys2Proof.Machine
end

