-- ==== Sys2Proof/Config.lean ====
section
/-! DEFINITION. What an implementation fixes: the parameters P1 to P31 of 00_scope.md section 5 as plain data, and the
free values and the base hart's behaviour as constants without a body. -/

namespace Sys2Proof

/-- P1 `XLEN`. -/
inductive Xlen where
  | x32
  | x64
deriving DecidableEq, Repr, Inhabited

/-- P2 `IALIGN`. -/
inductive Ialign where
  | i16
  | i32
deriving DecidableEq, Repr, Inhabited

/-- P6 `DEBUGVER` (30_encoding.md R91). -/
inductive DebugVer where
  /-- 0: "There is no debug support." -/
  | none
  /-- 4: this specification. -/
  | v1_0
  /-- 15: debug support that conforms to no available version. -/
  | custom
deriving DecidableEq, Repr, Inhabited

/-- The implementation choice of a WARL bit: `writable`, or hardwired (`mprven`: tied) to 0 or 1. -/
inductive BitImpl where
  | writable
  | hardwired0
  | hardwired1
deriving DecidableEq, Repr, Inhabited

/-- P14 `PRV_LEGALIZE`: the default (identity on supported modes, M otherwise), or the implementation's function, of
which only 10_state.md R28 is known (notes/assumptions/28.md). -/
inductive PrvPolicy where
  | toM
  | implementation
deriving DecidableEq, Repr, Inhabited

/-- P25 `DPC_LEGALIZE`: the default (clear the low bits), or the implementation's function, of which only 10_state.md
R41 is known (notes/assumptions/29.md). -/
inductive DpcPolicy where
  | clearLow
  | implementation
deriving DecidableEq, Repr, Inhabited

/-- P27 `DEBUG_EXEC`: in Debug Mode the hart executes only what `ExecProgbuf` hands it (the default), or code of its own
too while the Program Buffer is not executing (92_eei_decisions.md D23, notes/assumptions/34.md). -/
inductive DebugExec where
  | progbufOnly
  | implementation
deriving DecidableEq, Repr, Inhabited

/-- How the base hart fetches (20_memory.md R71, R72, R85; notes/assumptions/11.md): the bytes of memory at `pc`, or what the
implementation's translation, protection and caches make of the state. -/
inductive FetchPolicy where
  | direct
  | implementation
deriving DecidableEq, Repr, Inhabited

/-- The six reasons for entering Debug Mode (60_exceptions.md R150). -/
inductive Reason where
  | ebreak
  | trigger
  | haltreq
  | step
  | resethaltreq
  | group
deriving DecidableEq, Repr, Inhabited

/-- The parameters of a hart (00_scope.md section 5). The defaults are the column "Default in test vectors"
(notes/assumptions/1.md). -/
structure Config where
  /-- P1 -/
  xlen              : Xlen := .x32
  /-- P2 -/
  ialign            : Ialign := .i32
  /-- P3 -/
  hasS              : Bool := true
  /-- P4 -/
  hasU              : Bool := true
  /-- P5 -/
  hasH              : Bool := false
  /-- P6 -/
  debugver          : DebugVer := .v1_0
  /-- P7: `stepie` is writable (else hardwired to 0). -/
  stepieWritable    : Bool := true
  /-- P8 -/
  stopcountImpl     : BitImpl := .writable
  /-- P9, read where `stopcount` is writable -/
  stopcountPreset   : Bool := false
  /-- P10 -/
  stoptimeImpl      : BitImpl := .writable
  /-- P11, read where `stoptime` is writable -/
  stoptimePreset    : Bool := false
  /-- P12 -/
  mprvenImpl        : BitImpl := .writable
  /-- P13, read where `mprven` is writable -/
  mprvenPreset      : Bool := false
  /-- P14 -/
  prvPolicy         : PrvPolicy := .toM
  /-- P15 -/
  multiHart         : Bool := false
  /-- P16: the row of the table of 60_exceptions.md R163, counted from 0 (the default, 1, is row 2). -/
  causeOrder        : Fin 15 := 1
  /-- P17: resethaltreq is reported as 3 (else 5). -/
  resethaltAs3      : Bool := false
  /-- P18: group is reported as 3 (else 6). -/
  groupAs3          : Bool := false
  /-- P19 -/
  hasDscratch0      : Bool := true
  /-- P20 -/
  hasDscratch1      : Bool := true
  /-- P21 -/
  nscratch          : Fin 3 := 2
  /-- P22 -/
  progbufClobbers   : Bool := false
  /-- P23 -/
  absDpcReadRunning : Bool := false
  /-- P24 -/
  absDpcWriteRunning : Bool := false
  /-- P25 -/
  dpcPolicy         : DpcPolicy := .clearLow
  /-- P26 -/
  layout            : Machine.DcsrLayout := Machine.DcsrLayout.standard
  /-- P27 -/
  debugExec         : DebugExec := .progbufOnly
  /-- P28 -/
  nmiDebugReliable  : Bool := true
  /-- P29 -/
  hasDret           : Bool := false
  /-- P30 -/
  hasTriggers       : Bool := false
  /-- P31 -/
  hasHaltGroups     : Bool := false
  /-- U16: a single-hart core stops `cycle` as 60_exceptions.md R190 recommends. -/
  cycleStops        : Bool := true
  /-- U26: an interrupt taken during a single step lets the handler's first instruction execute too
  (60_exceptions.md R174; the default is the spec's own choice, that it does not). -/
  stepRunsHandler   : Bool := false
  /-- C9, D19: `time` is drawn after `stoptime` was set in Debug Mode (the default is the literal formula of
  60_exceptions.md R191). -/
  lateStoptimeDrawn : Bool := false
  /-- A reset with the halt-on-reset request armed leaves reason resethaltreq to the hart's next step, which records the
  highest reason present (60_exceptions.md R160, R171); the default is the entry of 70_reset_and_hazards.md R202, for
  resethaltreq (notes/assumptions/26.md). -/
  resetHaltByOrder  : Bool := false
  /-- How the base hart fetches. -/
  fetchPolicy       : FetchPolicy := .direct
  /-- A breakpoint's trap value is the address of the `ebreak` (else 0), 41_ebreak.md R133. -/
  bpTvalIsAddr      : Bool := true
  /-- The base hart's reset `pc` (70_reset_and_hazards.md R203; notes/assumptions/5.md). -/
  resetPc           : Word := 0
deriving DecidableEq, Repr, Inhabited

namespace Config

/-- The hart of 95_test_vectors.md. -/
def standard : Config := {}

/-- The values the spec leaves open, each a free value (93_implementation_defined.md part 1). -/
inductive Draw where
  /-- `dpc` after reset (70 R200). -/
  | resetDpc
  /-- `dscratch0` after reset (70 R200). -/
  | resetScratch0
  /-- `dscratch1` after reset (70 R200). -/
  | resetScratch1
  /-- `dscratch0` as a read finds it where `hartinfo` does not mention it (10 R48). -/
  | readScratch0
  /-- `dscratch1`, the same. -/
  | readScratch1
  /-- `dscratch0` after a debugger command boundary or a resume (10 R48). -/
  | commandScratch0
  /-- `dscratch1`, the same. -/
  | commandScratch1
  /-- `dpc` after the Program Buffer executed (10 R40). -/
  | clobberedDpc
  /-- `pc` while in Debug Mode (10 R55). -/
  | debugPc
  /-- The cause code of an illegal-instruction exception (91 N13). -/
  | illegalCause
deriving DecidableEq, Repr, Inhabited

/-- A free XLEN-bit value: the n-th draw of its kind. -/
opaque drawWord : Draw → Nat → Word

/-- Which of the addresses the hart had as `pc` since the last resume a read of `dpc` while running returns (10_state.md
R42). -/
opaque recentIndex : Nat → Nat

/-- How many more instructions execute before the jump of a `dpc` write while running (10_state.md R43). -/
opaque jumpDelay : Nat → Nat

/-- The `time` read after `stoptime` was set in Debug Mode, where it is drawn (60_exceptions.md R191). -/
opaque lateTime : Nat → Nat

/-- By how much `cycle` advances in a step when it counts as usual (10_state.md R57). -/
opaque cycleIncrement : Nat → Nat

/-- By how much `instret` advances with an instruction that may retire, when it counts as usual. -/
opaque instretIncrement : Nat → Nat

/-- By how much the i-th other hart-local counter advances when it counts as usual. -/
opaque localIncrement : Nat → Nat → Nat

/-- The debugger is allowed to change the mode of the first pair to that of the second (10_state.md R28). -/
opaque prvAllowed : Config → Bool × BitVec 2 → Bool × BitVec 2 → Bool

/-- The mode an implementation stores for a pair that is not supported or not allowed (10_state.md R28). -/
opaque prvChoice : Config → Bool × BitVec 2 → Bool × BitVec 2 → Bool × BitVec 2

/-- The base hart's notion of a valid virtual address (20_memory.md R75). -/
opaque validAddress : Config → Word → Bool

/-- The invalid addresses an implementation's `dpc` can hold (10_state.md R38). -/
opaque canHoldInvalid : Config → Word → Bool

/-- The invalid address an implementation converts an invalid address into (10_state.md R38). -/
opaque convertInvalid : Config → Word → Word

/-- The bytes the base hart fetches at its `pc`, in its mode and state, as far as they can be fetched (20_memory.md
R71). -/
opaque baseFetch : Config → Nat → Machine.Base → List Byte

/-- The bytes of the instruction a halted hart executes of its own; empty where it executes none (00_scope.md P27). -/
opaque debugCode : Config → Nat → Machine.Base → List Byte

/-- BaseHart.Exec: one instruction of the base hart (00_scope.md R3). -/
opaque baseExec : Config → Nat → Machine.BaseCtx → Machine.Base → Machine.BaseEffect

/-- The base hart takes an interrupt or NMI (60_exceptions.md R174). -/
opaque baseInterrupt : Config → Nat → Machine.Base → Machine.BaseEffect

/-- `BaseHart.TakeTrap(cause, info)` (00_scope.md R3): what the base hart decides of a trap, from the exception, its `info`
and the base hart's state. -/
opaque baseTrap : Config → Nat → Machine.Exc → Machine.Base → Machine.TrapEntry

/-- BaseHart.Reset (70_reset_and_hazards.md R200). -/
opaque baseReset : Config → Nat → Machine.Base → Machine.BaseEffect

end Config

end Sys2Proof
end

