-- ==== Sys2Proof/Machine/Registers.lean ====
section
/-! DEFINITION. XLEN-bit values and instruction addresses, the stored fields of `dcsr`, and the reset values of `dcsr` and of the base hart's registers. -/

namespace Sys2Proof.Machine

/-- Keep the XLEN low bits of a carrier word (00_scope.md P1). -/
def trunc (c : Config) (w : Word) : Word :=
  match c.xlen with
  | .x32 => w &&& 0xffffffff#64
  | .x64 => w

/-- The number of addresses, 2^XLEN. -/
def addressCount (c : Config) : Nat :=
  match c.xlen with
  | .x32 => 2 ^ 32
  | .x64 => 2 ^ 64

/-- Clear the low bits no instruction address has (10_state.md R39): bit 0, and bit 1 too when IALIGN is 32. -/
def clearLowBits (c : Config) (w : Word) : Word :=
  match c.ialign with
  | .i16 => w &&& ~~~1#64
  | .i32 => w &&& ~~~3#64

/-- An XLEN-bit instruction address made of a word: truncated, low bits clear (10_state.md R39, 20_memory.md R77). -/
def instrAddress (c : Config) (w : Word) : Word := clearLowBits c (trunc c w)

/-- The stored fields of `dcsr` (10_state.md R15 to R28). `debugver` is a view of the configuration (R14) and `nmip` of
the pending-NMI input (R26). -/
structure Dcsr where
  /-- R15 -/
  ebreakvs  : Bool := false
  /-- R16 -/
  ebreakvu  : Bool := false
  /-- R17 -/
  ebreakm   : Bool := false
  /-- R18 -/
  ebreaks   : Bool := false
  /-- R19 -/
  ebreaku   : Bool := false
  /-- R20 -/
  stepie    : Bool := false
  /-- R21 -/
  stopcount : Bool := false
  /-- R22 -/
  stoptime  : Bool := false
  /-- R23 -/
  cause     : BitVec 3 := 0
  /-- R24 -/
  v         : Bool := false
  /-- R25 -/
  mprven    : Bool := false
  /-- R27 -/
  step      : Bool := false
  /-- R28 -/
  prv       : BitVec 2 := 3
deriving DecidableEq, Repr, Inhabited

/-- The value of a WARL bit after reset: the preset, or the hardwired value (70_reset_and_hazards.md R204). -/
def presetBit (impl : BitImpl) (preset : Bool) : Bool :=
  match impl with
  | .writable => preset
  | .hardwired0 => false
  | .hardwired1 => true

/-- The reset value of `dcsr` (10_state.md R32). -/
def Dcsr.reset (c : Config) : Dcsr :=
  { stopcount := presetBit c.stopcountImpl c.stopcountPreset
    stoptime  := presetBit c.stoptimeImpl c.stoptimePreset
    mprven    := presetBit c.mprvenImpl c.mprvenPreset }

/-- The base hart at `State.reset`: M-mode at the reset `pc` (70_reset_and_hazards.md R200), and zero in every register
the spec gives no value (notes/assumptions/5.md, DESIGN CHOICE). -/
def Base.reset (c : Config) : Base :=
  { x := Vector.replicate 32 0
    pc := instrAddress c c.resetPc
    priv := 3
    virt := false
    mprv := false
    mpp := 0
    trapM := {}
    trapS := {}
    trapVS := {}
    cycle := 0
    instret := 0
    localCounters := []
    mem := []
    other := [] }

end Sys2Proof.Machine
end

