-- ==== Sys2Proof/Machine/State.lean ====
section
/-! DEFINITION. The machine's state, why a step can stop, and the state after reset. -/

namespace Sys2Proof.Machine

/-- What happens around one step the hart takes: whether a trigger with action=1 fires before the instruction at `pc`
(`TrigBefore`) and after it (`TrigAfter`, 60_exceptions.md R152), and which requests become present while it executes
(R171, "present now"). -/
structure HartInputs where
  trigBefore  : Bool := false
  trigAfter   : Bool := false
  lateHaltreq : Bool := false
  lateGroup   : Bool := false
deriving DecidableEq, Repr, Inhabited

/-- What can happen next: the hart takes a step; a host move (60_exceptions.md R185); a platform input. -/
inductive Event where
  /-- The hart takes one step. -/
  | hart (inputs : HartInputs)
  /-- `HaltReq` -/
  | haltReq
  /-- `ClearHaltReq` -/
  | clearHaltReq
  /-- `ArmResetHaltReq` -/
  | armResetHaltReq
  /-- `Disarm` -/
  | disarmResetHaltReq
  /-- `ResumeReq` -/
  | resumeReq
  /-- `AbstractRead(csr)`; with `postexec` set, the Program Buffer's instructions (40_csr_access.md R125). -/
  | abstractRead (csr : DebugCsr) (postexec : Option (List Byte))
  /-- `AbstractWrite(csr, w)`; with `postexec` set, the Program Buffer's instructions. -/
  | abstractWrite (csr : DebugCsr) (w : Word) (postexec : Option (List Byte))
  /-- `AbstractReadDpcRunning` (10_state.md R42). -/
  | abstractReadDpcRunning
  /-- `AbstractWriteDpcRunning(w)` (10_state.md R43). -/
  | abstractWriteDpcRunning (w : Word)
  /-- `ExecProgbuf(instrs)`, the instructions as bytes. -/
  | execProgbuf (instrs : List Byte)
  /-- `Reset` (70_reset_and_hazards.md R200). -/
  | reset
  /-- The NMI source raises or withdraws its signal (10_state.md R53). -/
  | nmi (pending : Bool)
  /-- The platform timer advances (60_exceptions.md R192). -/
  | mtimeAdvance (n : Nat)
  /-- The halt group's request becomes present or absent (60_exceptions.md R195). -/
  | haltGroup (present : Bool)
  /-- The base hart's own rules would (or would not) take an interrupt or NMI (60_exceptions.md R174). -/
  | interrupt (ready : Bool)
deriving DecidableEq, Repr, Inhabited

/-- The machine. -/
structure State where
  /-- The parameters of the hart, fixed for its lifetime (00_scope.md R4). -/
  cfg                : Config
  /-- `dcsr` (10_state.md R12). -/
  dcsr               : Dcsr
  /-- `dpc` (R35). -/
  dpc                : Word
  /-- `dscratch0` (R45). -/
  dscratch0          : Word
  /-- `dscratch1` (R46). -/
  dscratch1          : Word
  /-- The hart is in Debug Mode (R50). -/
  debugMode          : Bool
  /-- Reason haltreq is present (R51). -/
  haltreq            : Bool
  /-- Reason group is present (R51). -/
  group              : Bool
  /-- The debugger has armed the halt-on-reset request (60_exceptions.md R185). -/
  resethaltArmed     : Bool
  /-- Reason resethaltreq is present (R51). -/
  resethaltPresent   : Bool
  /-- A trigger fired after the instruction just executed (R54). -/
  trigAfterPending   : Bool
  /-- The value of `mtime` at the last entry into Debug Mode (R52). -/
  timeAtEntry        : Option Nat
  /-- `stoptime` was changed from 0 to 1 in this stay in Debug Mode (60_exceptions.md R191). -/
  stoptimeSetInDebug : Bool
  /-- The hart has resumed since the last boundary between debugger commands: what a scratch register holds is not stated
  (R48, notes/assumptions/22.md). -/
  scratchStale       : Bool
  /-- An NMI is pending (R53). -/
  nmiPending         : Bool
  /-- `nmip` has read 1 at some time (60_exceptions.md R189). -/
  nmiSeen            : Bool
  /-- The platform timer (R57). -/
  mtime              : Nat
  /-- The base hart's own rules would take an interrupt or NMI now (60_exceptions.md R174). -/
  irqReady           : Bool
  /-- What the Program Buffer still has to execute; none when it is not executing (60_exceptions.md R185). -/
  progbuf            : Option (List Byte)
  /-- The instructions left before the jump of a `dpc` write while running, and the value written (R43). -/
  pendingJump        : Option (Nat × Word)
  /-- The addresses the hart had as `pc` since it last resumed, but the present one, the latest first (R42,
  70_reset_and_hazards.md R217). -/
  pcHistory          : List Word
  /-- What the last abstract read returned (40_csr_access.md R124). -/
  abstractResult     : Option Word
  /-- What is to happen, the next first; when nothing is left the hart takes steps (notes/assumptions/14.md). -/
  env                : List Event
  /-- The number of the next free value (notes/assumptions/7.md). -/
  draws              : Nat
  /-- The base hart (00_scope.md R3). -/
  base               : Base
deriving DecidableEq, Repr, Inhabited

/-- Why the machine stops with a fault. Both are states no run from reset reaches; stopping there is safe. -/
inductive Fault where
  /-- Raised by `step` when `dcsr.cause` holds the reserved code 7 (93_implementation_defined.md U3: stuck). Safe. -/
  | reservedCause
  /-- Raised by `ebreak` and `c.ebreak` outside Debug Mode when (`virt`, `priv`) encodes no mode, so that 41_ebreak.md
  R130 names no governing field. Safe. -/
  | noSuchMode
deriving DecidableEq, Repr, Inhabited

/-- Why a run is outside the model. -/
inductive Refusal where
  /-- Raised by `exec` for an instruction that has no meaning yet. Safe. -/
  | notModelled (mnemonic : String)
  /-- Raised by `step` on a hart with `debugver` 0 (92_eei_decisions.md D32). Safe. -/
  | noDebugSupport
  /-- Raised by `step` on a hart with `debugver` 15 (92_eei_decisions.md D32). Safe. -/
  | customDebug
  /-- Raised by `step` from the moment `nmip` first reads 1, on a hart where debugging is then no longer reliable
  (93_implementation_defined.md U8). Safe. -/
  | nmiUnreliable
  /-- Raised by a write to a scratch register that `hartinfo` does not mention, by a CSR instruction of the Program Buffer
  or an abstract command: a breach of a debugger duty (70_reset_and_hazards.md R212). Safe. -/
  | scratchNotMentioned
  /-- Raised by an abstract command on `dcsr`, `dpc` or a scratch register, as in Debug Mode, while the hart is running
  (40_csr_access.md R126). Safe. -/
  | abstractWhileRunning
  /-- Raised by an abstract command on a scratch register the hart does not have; its error reporting is the Debug
  Module's (40_csr_access.md R124). Safe. -/
  | abstractAbsentRegister
  /-- Raised by a host move whose precondition does not hold (60_exceptions.md R185). Safe. -/
  | moveNotAvailable
deriving DecidableEq, Repr, Inhabited

/-- A hart of configuration `c` right after reset, the halt-on-reset request not armed and nothing present. The registers
without a reset value in the spec hold 0 (notes/assumptions/4.md, 5.md and 6.md, DESIGN CHOICE). -/
def State.resetOf (c : Config) : State :=
  { cfg := c
    dcsr := Dcsr.reset c
    dpc := 0
    dscratch0 := 0
    dscratch1 := 0
    debugMode := false
    haltreq := false
    group := false
    resethaltArmed := false
    resethaltPresent := false
    trigAfterPending := false
    timeAtEntry := none
    stoptimeSetInDebug := false
    scratchStale := false
    nmiPending := false
    nmiSeen := false
    mtime := 0
    irqReady := false
    progbuf := none
    pendingJump := none
    pcHistory := []
    abstractResult := none
    env := []
    draws := 0
    base := Base.reset c }

/-- The machine right after reset (the host's fixed name), of the hart of 95_test_vectors.md. -/
def State.reset : State := State.resetOf Config.standard

end Sys2Proof.Machine
end

