-- ==== Sys2Proof/Machine/Operands.lean ====
section
/-! DEFINITION. Operands: general registers, immediates, CSR addresses, and the
value a CSR instruction writes. -/

namespace Sys2Proof.Machine

/-- Read a general register; `x0` reads 0 (10_state.md R56). -/
def Base.getReg (b : Base) (r : Reg) : Word := if r = 0 then 0 else b.x[r]

/-- Write a general register; a write to `x0` is discarded (10_state.md R56). -/
def Base.setReg (c : Config) (b : Base) (r : Reg) (w : Word) : Base :=
  if r = 0 then b else { b with x := b.x.set r (trunc c w) }

/-- Read a general register of the hart. -/
def State.getReg (s : State) (r : Reg) : Word := s.base.getReg r

/-- Write a general register of the hart. -/
def State.setReg (s : State) (r : Reg) (w : Word) : State := { s with base := s.base.setReg s.cfg r w }

/-- The immediate operand: the five bits zero-extended (30_encoding.md R98). -/
def uimmValue (u : Uimm) : Word := u.setWidth 64

/-- The Core Debug Register at a CSR address (10_state.md R10, 30_encoding.md R90). -/
def csrAt (a : CsrAddr) : Option DebugCsr :=
  if a = 0x7b0 then some .dcsr
  else if a = 0x7b1 then some .dpc
  else if a = 0x7b2 then some .dscratch0
  else if a = 0x7b3 then some .dscratch1
  else none

/-- The CSR address of a Core Debug Register (10_state.md R10). -/
def csrAddress : DebugCsr → CsrAddr
  | .dcsr => 0x7b0
  | .dpc => 0x7b1
  | .dscratch0 => 0x7b2
  | .dscratch1 => 0x7b3

/-- What a CSR instruction makes of the old value and its operand (40_csr_access.md R116 to R121). -/
inductive CsrOp where
  | write
  | set
  | clear
deriving DecidableEq, Repr, Inhabited

/-- The value written. -/
def csrNewValue (op : CsrOp) (old operand : Word) : Word :=
  match op with
  | .write => operand
  | .set => old ||| operand
  | .clear => old &&& ~~~operand

/-- The hart has the instruction: `c.ebreak` exists only when IALIGN is 16 (41_ebreak.md R132), `dret` only when
P.HAS_DRET (42_dret.md R140). -/
def existsOn (c : Config) : Instr → Bool
  | .csrrw _ _ _ => true
  | .csrrs _ _ _ => true
  | .csrrc _ _ _ => true
  | .csrrwi _ _ _ => true
  | .csrrsi _ _ _ => true
  | .csrrci _ _ _ => true
  | .ebreak => true
  | .cEbreak => decide (c.ialign = .i16)
  | .dret => c.hasDret

/-- The instruction is one of the two "`ebreak` instructions" of this hart (00_scope.md R3 IsEbreak, 41_ebreak.md
R132). -/
def isEbreak (c : Config) : Instr → Bool
  | .csrrw _ _ _ => false
  | .csrrs _ _ _ => false
  | .csrrc _ _ _ => false
  | .csrrwi _ _ _ => false
  | .csrrsi _ _ _ => false
  | .csrrci _ _ _ => false
  | .ebreak => true
  | .cEbreak => existsOn c .cEbreak
  | .dret => false

end Sys2Proof.Machine
end

