-- ==== Sys2Proof/Machine/Flags.lean ====
section
/-! DEFINITION. The one-bit conditions of the debug layer. The hardware has no condition codes (40_csr_access.md R122);
these are the conditions that fields of `dcsr`, the mode and the inputs decide. -/

namespace Sys2Proof.Machine

/-- (`v`, `prv`) encodes a mode the hart has: the column "Exists when" of 30_encoding.md R94. -/
def supported (c : Config) (m : Bool × BitVec 2) : Bool :=
  match m with
  | (false, 0) => c.hasU
  | (false, 1) => c.hasS
  | (false, 3) => true
  | (true, 0) => c.hasH
  | (true, 1) => c.hasH
  | _ => false

/-- The mode the hart runs in, as (`virt`, `priv`). -/
def State.mode (s : State) : Bool × BitVec 2 := (s.base.virt, s.base.priv)

/-- The mode recorded in `dcsr`, as (`v`, `prv`). -/
def State.savedMode (s : State) : Bool × BitVec 2 := (s.dcsr.v, s.dcsr.prv)

/-- The bit of `dcsr` that governs an `ebreak` in a mode (41_ebreak.md R130); none for a pair that encodes no mode. -/
def governingBit (d : Dcsr) (m : Bool × BitVec 2) : Option Bool :=
  match m with
  | (false, 3) => some d.ebreakm
  | (false, 1) => some d.ebreaks
  | (false, 0) => some d.ebreaku
  | (true, 1) => some d.ebreakvs
  | (true, 0) => some d.ebreakvu
  | _ => none

/-- `EbreakToDebug()` in the current mode (41_ebreak.md R130). -/
def State.ebreakToDebug (s : State) : Option Bool := governingBit s.dcsr s.mode

/-- The field `nmip` of `dcsr`: a live view of the pending-NMI input (10_state.md R26). -/
def State.nmip (s : State) : Bool := s.nmiPending

/-- The field `debugver` of `dcsr` (10_state.md R14, 30_encoding.md R91). -/
def debugverCode : DebugVer → BitVec 4
  | .none => 0
  | .v1_0 => 4
  | .custom => 15

/-- Interrupts and NMI are masked: a single step with `stepie` 0 (60_exceptions.md R174), or Debug Mode (R184). -/
def State.interruptsMasked (s : State) : Bool := s.debugMode || (s.dcsr.step && !s.dcsr.stepie)

/-- The hart-local counters do not increment (60_exceptions.md R190); `entering` is `entering_ebreak`. -/
def State.countersFrozen (s : State) (entering : Bool) : Bool := s.dcsr.stopcount && (s.debugMode || entering)

/-- `cycle` does not increment (60_exceptions.md R190, 93_implementation_defined.md U16). -/
def State.cycleFrozen (s : State) (entering : Bool) : Bool :=
  s.countersFrozen entering && !s.cfg.multiHart && s.cfg.cycleStops

/-- The effective `mstatus.MPRV` (20_memory.md R74). -/
def State.effectiveMprv (s : State) : Bool := if s.debugMode then s.dcsr.mprven && s.base.mprv else s.base.mprv

/-- The privilege instructions execute with: M-mode in Debug Mode (20_memory.md R73, 60_exceptions.md R183). -/
def State.execPriv (s : State) : BitVec 2 := if s.debugMode then 3 else s.base.priv

/-- The virtualization mode instructions execute with: none in Debug Mode, which is M-mode (30_encoding.md R94). -/
def State.execVirt (s : State) : Bool := if s.debugMode then false else s.base.virt

/-- The privilege loads and stores are made with (20_memory.md R73, R74). -/
def State.memPriv (s : State) : BitVec 2 := if s.effectiveMprv then s.base.mpp else s.execPriv

/-- A drawn `time`, held between the entry's value and `mtime` (60_exceptions.md R191). -/
def drawnTime (entry mtime n : Nat) : Nat := max entry (min mtime (Config.lateTime n))

/-- The value of the `time` CSR (60_exceptions.md R191). DESIGN CHOICE under `lateStoptimeDrawn`
(notes/assumptions/21.md): `mtime` where `stoptime` was set and cleared again in the same stay in Debug Mode. -/
def State.time (s : State) : Nat :=
  match s.timeAtEntry with
  | some t =>
    if s.debugMode && s.dcsr.stoptime then
      if s.stoptimeSetInDebug && s.cfg.lateStoptimeDrawn then drawnTime t s.mtime s.draws else t
    else s.mtime
  | none => s.mtime

/-- `hartinfo` mentions the register, so that the debugger may write it (10_state.md R47); registers other than the
scratch registers are always the debugger's. -/
def mentioned (c : Config) : DebugCsr → Bool
  | .dcsr => true
  | .dpc => true
  | .dscratch0 => decide (1 ≤ c.nscratch.val)
  | .dscratch1 => decide (2 ≤ c.nscratch.val)

/-- An instruction's write of the register breaches no duty of the debugger: `hartinfo` mentions it, or the instruction is
not the debugger's, the Program Buffer not executing (70_reset_and_hazards.md R212, notes/assumptions/22.md). -/
def State.mayWrite (s : State) (r : DebugCsr) : Bool := mentioned s.cfg r || s.progbuf.isNone

/-- The hart has the register (10_state.md R45, R46). -/
def present (c : Config) : DebugCsr → Bool
  | .dcsr => true
  | .dpc => true
  | .dscratch0 => c.hasDscratch0
  | .dscratch1 => c.hasDscratch1

/-- `CheckAccess` passes (40_csr_access.md R111). -/
def State.csrAccessible (s : State) (r : DebugCsr) : Bool := s.debugMode && present s.cfg r

/-- A group halt is present (60_exceptions.md R156; 00_scope.md P31). -/
def State.groupPresent (s : State) : Bool := s.cfg.hasHaltGroups && s.group

/-- The asynchronous reasons present (60_exceptions.md R171). -/
def State.asyncReasons (s : State) : List Reason :=
  (if s.resethaltPresent then [.resethaltreq] else []) ++
  (if s.groupPresent then [.group] else []) ++
  (if s.haltreq then [.haltreq] else [])

/-- The reason trigger is present for the instruction at `pc` (60_exceptions.md R152, R171). -/
def State.triggerPresent (s : State) (inputs : HartInputs) : Bool :=
  s.cfg.hasTriggers && (s.trigAfterPending || inputs.trigBefore)

/-- The reason ebreak is present for a decoded instruction (60_exceptions.md R151, R171). -/
def State.ebreakPresent (s : State) (i : Option Instr) : Bool :=
  match i with
  | some i => isEbreak s.cfg i && decide (s.ebreakToDebug = some true)
  | none => false

/-- The reasons present before the instruction at `pc`: the set R of 60_exceptions.md R171. -/
def State.reasonsBefore (s : State) (inputs : HartInputs) (i : Option Instr) : List Reason :=
  s.asyncReasons ++
  (if s.triggerPresent inputs then [.trigger] else []) ++
  (if s.ebreakPresent i then [.ebreak] else [])

/-- The fifteen permitted priority orders, highest first, as 60_exceptions.md R163 numbers them. -/
def causeOrders : List (List Reason) :=
  [[.resethaltreq, .haltreq, .group, .trigger, .ebreak, .step],
   [.resethaltreq, .group, .haltreq, .trigger, .ebreak, .step],
   [.resethaltreq, .group, .trigger, .haltreq, .ebreak, .step],
   [.resethaltreq, .group, .trigger, .ebreak, .haltreq, .step],
   [.resethaltreq, .group, .trigger, .ebreak, .step, .haltreq],
   [.group, .resethaltreq, .haltreq, .trigger, .ebreak, .step],
   [.group, .resethaltreq, .trigger, .haltreq, .ebreak, .step],
   [.group, .resethaltreq, .trigger, .ebreak, .haltreq, .step],
   [.group, .resethaltreq, .trigger, .ebreak, .step, .haltreq],
   [.group, .trigger, .resethaltreq, .haltreq, .ebreak, .step],
   [.group, .trigger, .resethaltreq, .ebreak, .haltreq, .step],
   [.group, .trigger, .resethaltreq, .ebreak, .step, .haltreq],
   [.group, .trigger, .ebreak, .resethaltreq, .haltreq, .step],
   [.group, .trigger, .ebreak, .resethaltreq, .step, .haltreq],
   [.group, .trigger, .ebreak, .step, .resethaltreq, .haltreq]]

/-- The hart's priority order, P.CAUSE_ORDER (60_exceptions.md R160, R163). -/
def causeOrder (c : Config) : List Reason := causeOrders.getD c.causeOrder.val []

/-- `Highest(R)` (60_exceptions.md R160); none when no reason is present. -/
def highest (c : Config) (present : List Reason) : Option Reason :=
  (causeOrder c).find? fun r => present.contains r

/-- The code that an entry for a reason writes to `cause` (60_exceptions.md R150, R155, R156, R165). -/
def causeCode (c : Config) : Reason → BitVec 3
  | .ebreak => 1
  | .trigger => 2
  | .haltreq => 3
  | .step => 4
  | .resethaltreq => if c.resethaltAs3 then 3 else 5
  | .group => if c.groupAs3 then 3 else 6

end Sys2Proof.Machine
end

