-- ==== Sys2Proof/Machine/Memory.lean ====
section
/-! DEFINITION. Memory: one byte read and written, the canonical form, and a run of bytes read from an address. -/

namespace Sys2Proof.Machine

/-- The canonical form: addresses strictly rising. (An unlisted address has no value, so no entry can equal what an
unlisted address reads as.) -/
abbrev Memory.wf (m : Memory) : Prop := m.Pairwise fun a b => a.1 < b.1

/-- The byte at an address; none where nothing is listed (notes/assumptions/11.md). -/
def Memory.read (m : Memory) (a : Nat) : Option Byte :=
  match m with
  | [] => none
  | c :: rest => if c.1 = a then some c.2 else Memory.read rest a

/-- Write one byte, keeping the canonical form. -/
def Memory.write (m : Memory) (a : Nat) (b : Byte) : Memory :=
  match m with
  | [] => [(a, b)]
  | c :: rest =>
    if a < c.1 then (a, b) :: c :: rest
    else if a = c.1 then (a, b) :: rest
    else c :: Memory.write rest a b

/-- Write bytes in order, each at its own address. -/
def Memory.writeAll (m : Memory) : List (Nat × Byte) → Memory
  | [] => m
  | (a, b) :: rest => Memory.writeAll (m.write a b) rest

/-- Up to `n` bytes from address `a` on, addresses counted modulo `size`, as far as they are listed. -/
def Memory.readRun (m : Memory) (size a : Nat) : Nat → List Byte
  | 0 => []
  | n + 1 =>
    match m.read (a % size) with
    | some b => b :: Memory.readRun m size (a + 1) n
    | none => []

/-- Write bytes at rising addresses from `a` on, counted modulo `size`. -/
def Memory.writeRun (m : Memory) (size a : Nat) : List Byte → Memory
  | [] => m
  | b :: rest => Memory.writeRun (m.write (a % size) b) size (a + 1) rest

end Sys2Proof.Machine
end

