-- ==== Sys2Proof/Machine/Ops.lean ====
section
/-! DEFINITION. The named operations on the state: free values, counting, fetching, one instruction of the base hart,
taking an exception, entering Debug Mode and resuming. -/

namespace Sys2Proof.Machine

/-- The next free value of a kind, as an XLEN-bit value. The operation that uses it advances `draws`. -/
def State.draw (s : State) (d : Config.Draw) : Word := trunc s.cfg (Config.drawWord d s.draws)

/-- Set what the Program Buffer still has to execute; none ends its execution. -/
def State.setProgbuf (s : State) (p : Option (List Byte)) : State := { s with progbuf := p }

/-- Count one step of the hart (60_exceptions.md R190): every counter increments as usual unless it is frozen.
`mayRetire`: an instruction may retire in this step; `entering`: it is an `ebreak` that enters Debug Mode. The amounts are
the base hart's (notes/assumptions/19.md). -/
def State.tick (s : State) (mayRetire entering : Bool) : State :=
  { s with
    base := { s.base with
      instret := if s.countersFrozen entering || !mayRetire then s.base.instret
                 else s.base.instret + Config.instretIncrement s.draws
      localCounters := if s.countersFrozen entering then s.base.localCounters
                       else s.base.localCounters.mapIdx fun i n => n + Config.localIncrement s.draws i
      cycle := if s.cycleFrozen entering then s.base.cycle else s.base.cycle + Config.cycleIncrement s.draws }
    draws := s.draws + 1 }

/-- The bytes of the instruction at `pc`, as far as they can be fetched, at most the longest instruction's four
(30_encoding.md R95). `pc` is a virtual address of the hart's mode (20_memory.md R71): the fetch is the base hart's. DESIGN
CHOICE, the default (notes/assumptions/11.md): memory at `pc` untranslated, so that every store is seen by the next fetch,
which the spec leaves open (20_memory.md R85). -/
def State.fetch (s : State) : List Byte :=
  match s.cfg.fetchPolicy with
  | .direct => s.base.mem.readRun (addressCount s.cfg) s.base.pc.toNat 4
  | .implementation => (Config.baseFetch s.cfg s.draws s.base).take 4

/-- The byte of memory at an address. -/
def State.readByte (s : State) (a : Nat) : Option Byte := s.base.mem.read a

/-- Where the base hart's instruction leaves `pc` (10_state.md R55, 60_exceptions.md R173, 92_eei_decisions.md D11). -/
def successorOf (e : BaseEffect) (pc : Word) (length : Option Nat) : Word :=
  match e.flow with
  | .goTo t => t
  | .fallThrough =>
    match length with
    | some n => pc + BitVec.ofNat 64 n
    | none => e.successor

/-- Keep the XLEN low bits of trap registers. -/
def TrapRegs.trunc (c : Config) (t : TrapRegs) : TrapRegs :=
  { epc := Machine.trunc c t.epc, cause := Machine.trunc c t.cause, tval := Machine.trunc c t.tval }

/-- A mode the hart has: the given one, or M-mode, which every hart has (30_encoding.md R94). -/
def supportedOrM (c : Config) (m : Bool × BitVec 2) : Bool × BitVec 2 := if supported c m then m else (false, 3)

/-- Put what the base hart did into the state, held to what the spec says of every base hart: XLEN-bit registers, `x0`
hardwired to 0, an aligned `pc`, a mode the hart has (10_state.md R55, R56, 20_memory.md R77). In Debug Mode too, where the
spec does not say what `pc`, `priv` and `virt` hold: there they are whatever the base hart answers, until resuming replaces
them (DESIGN CHOICE, notes/assumptions/12.md and 13.md). -/
def State.applyEffect (s : State) (length : Option Nat) (e : BaseEffect) : State :=
  let mode := supportedOrM s.cfg (e.virt, e.priv)
  { s with
    base :=
      { x := (e.x.map (trunc s.cfg)).set 0 0
        pc := instrAddress s.cfg (successorOf e s.base.pc length)
        priv := mode.2
        virt := mode.1
        mprv := e.mprv
        mpp := e.mpp
        trapM := e.trapM.trunc s.cfg
        trapS := e.trapS.trunc s.cfg
        trapVS := e.trapVS.trunc s.cfg
        cycle := e.writeCycle.getD s.base.cycle
        instret := e.writeInstret.getD s.base.instret
        localCounters := e.writeLocal.getD s.base.localCounters
        mem := s.base.mem.writeAll (e.stores.map fun st => ((trunc s.cfg st.1).toNat, st.2))
        other := e.other } }

/-- What the base hart is shown of an instruction it executes. -/
def State.baseCtx (s : State) (bytes : List Byte) : BaseCtx :=
  { bytes := bytes
    debugMode := s.debugMode
    execPriv := s.execPriv
    execVirt := s.execVirt
    effectiveMprv := s.effectiveMprv
    memPriv := s.memPriv
    time := s.time }

/-- The base hart as it executes an instruction: in Debug Mode in M-mode (60_exceptions.md R183). -/
def State.execBase (s : State) : Base := { s.base with priv := s.execPriv, virt := s.execVirt }

/-- The cause code of an exception: 3 for a breakpoint (41_ebreak.md R133), free for an illegal instruction, whose code
the spec does not state (91_not_in_source.md N13). -/
def State.excCause (s : State) : Exc → Word
  | .breakpoint _ => 3
  | .illegalInstruction _ => s.draw .illegalCause

/-- The trap value of an exception: 0 or the address of the `ebreak` for a breakpoint (41_ebreak.md R133), the base
hart's for an illegal instruction, which it may take from the instruction (40_csr_access.md R111). -/
def State.excTval (s : State) (t : TrapEntry) : Exc → Word
  | .breakpoint a => if s.cfg.bpTvalIsAddr then a else 0
  | .illegalInstruction _ => trunc s.cfg t.tval

/-- The mode that takes a trap: the base hart's choice, among the modes the hart has. -/
def trapTarget (c : Config) : TrapMode → TrapMode
  | .m => .m
  | .s => if c.hasS then .s else .m
  | .vs => if c.hasH then .vs else .m

/-- The mode the hart runs in once a mode has taken a trap, as (`virt`, `priv`) (30_encoding.md R94). -/
def trapModeCode : TrapMode → Bool × BitVec 2
  | .m => (false, 3)
  | .s => (false, 1)
  | .vs => (true, 1)

/-- The trap registers of a mode. -/
def Base.trapRegs (b : Base) : TrapMode → TrapRegs
  | .m => b.trapM
  | .s => b.trapS
  | .vs => b.trapVS

/-- Write the trap registers of a mode. -/
def Base.setTrapRegs (b : Base) (target : TrapMode) (t : TrapRegs) : Base :=
  match target with
  | .m => { b with trapM := t }
  | .s => { b with trapS := t }
  | .vs => { b with trapVS := t }

/-- TAKING AN EXCEPTION outside Debug Mode: `BaseHart.TakeTrap(cause, info)` (00_scope.md R3) as far as 41_ebreak.md R133 describes it. The exception
PC register of the mode that takes the trap receives the address of the instruction, its cause register the code, its
trap value register the value; the hart goes on in that mode at the handler's address. Which mode, which address and what
becomes of `mstatus` are the base hart's, which is shown the exception, its `info` (the illegal instruction, or the address of
the `ebreak`) and its own state, so that two illegal instructions may make two different traps (notes/assumptions/9.md). No
general register and no memory is written (PRESUMED, log 9). -/
def State.takeTrap (s : State) (e : Exc) : State :=
  let t := Config.baseTrap s.cfg s.draws e s.base
  let target := trapTarget s.cfg t.mode
  let b := s.base.setTrapRegs target { epc := s.base.pc, cause := s.excCause e, tval := s.excTval t e }
  { s with
    base := { b with
      pc := instrAddress s.cfg t.handler
      priv := (trapModeCode target).2
      virt := (trapModeCode target).1
      mprv := t.mprv
      mpp := t.mpp
      other := t.other }
    draws := s.draws + 1 }

/-- An instruction raises an exception: outside Debug Mode the trap is taken; in Debug Mode no trap is taken, no register
changes and execution of the Program Buffer ends (60_exceptions.md R184). The instruction does not retire. -/
def State.raise (s : State) (e : Exc) : State :=
  let t := s.tick false false
  if s.debugMode then t.setProgbuf none else t.takeTrap e

/-- One instruction of the base hart (00_scope.md R3), its length given where it is known. In Debug Mode an exception
ends the Program Buffer and has no other effect (60_exceptions.md R184). -/
def State.baseInstr (s : State) (bytes : List Byte) (length : Option Nat) : State :=
  let e := Config.baseExec s.cfg s.draws (s.baseCtx bytes) s.execBase
  if s.debugMode && e.excepted then (s.tick false false).setProgbuf none
  else (s.applyEffect length e).tick e.retired false

/-- ENTERING DEBUG MODE, `EnterDebug(reason, addr)` (60_exceptions.md R165). `pc` is not modelled in Debug Mode
(10_state.md R55): it becomes a free value, its address from before is noted. -/
def State.enterDebug (s : State) (r : Reason) (addr : Word) : State :=
  { s with
    dcsr := { s.dcsr with prv := s.base.priv, v := s.cfg.hasH && s.base.virt, cause := causeCode s.cfg r }
    dpc := addr
    timeAtEntry := some s.mtime
    trigAfterPending := false
    resethaltPresent := false
    stoptimeSetInDebug := false
    debugMode := true
    pcHistory := s.base.pc :: s.pcHistory
    base := { s.base with pc := s.draw .debugPc }
    draws := s.draws + 1 }

/-- A boundary of 10_state.md R48 (between debugger commands, or where a hart that has resumed is back in Debug Mode): what a
scratch register holds across it is not stated. -/
def State.commandBoundary (s : State) : State :=
  { s with
    dscratch0 := s.draw .commandScratch0
    dscratch1 := s.draw .commandScratch1
    scratchStale := false
    draws := s.draws + 1 }

/-- The boundary of 10_state.md R48 for a hart that has resumed since the last one, before anything reads a scratch register;
otherwise none. -/
def State.freshScratch (s : State) : State := if s.scratchStale then s.commandBoundary else s

/-- RESUMING, `Resume()` (60_exceptions.md R180): `pc` from `dpc`, the mode from `v` and `prv`; `mstatus.MPRV` is cleared
when the mode is less privileged than M (R182). None of the four registers changes (R180). What a scratch register holds
across it is not stated (10_state.md R48): `scratchStale` says so, and the boundary is made before the next read
(notes/assumptions/22.md). -/
def State.resume (s : State) : State :=
  { s with
    base := { s.base with
      pc := s.dpc
      virt := s.dcsr.v
      priv := s.dcsr.prv
      mprv := if s.dcsr.prv = 3 then s.base.mprv else false }
    debugMode := false
    progbuf := none
    pcHistory := []
    stoptimeSetInDebug := false
    scratchStale := true }

/-- The Program Buffer has executed: on a hart where that clobbers `dpc`, `dpc` is a free value (10_state.md R40). -/
def State.clobberDpc (s : State) : State :=
  if s.cfg.progbufClobbers then
    { s with dpc := instrAddress s.cfg (s.draw .clobberedDpc), draws := s.draws + 1 }
  else s

/-- After an instruction of the Program Buffer: if that ended its execution, the consequence for `dpc`. -/
def State.closeProgbuf (s : State) : State := if s.progbuf = none then s.clobberDpc else s

/-- The base hart takes an interrupt or NMI (60_exceptions.md R174); it is then no longer ready to take it again.
The address that was `pc` is noted (70_reset_and_hazards.md R217). DESIGN CHOICE (notes/assumptions/18.md): the signal
`nmiPending` is neither read nor changed, the spec not saying how an NMI is taken and cleared (91_not_in_source.md N18). -/
def State.takeInterrupt (s : State) : State :=
  let t := (s.applyEffect none (Config.baseInterrupt s.cfg s.draws s.base)).tick false false
  { t with irqReady := false, pcHistory := s.base.pc :: s.pcHistory }

/-- Apply a function to the next state of an outcome. -/
def mapNext (f : State → State) (o : Host.Outcome State Fault Refusal) : Host.Outcome State Fault Refusal :=
  match o with
  | .next s => .next (f s)
  | .fault r => .fault r
  | .refused r => .refused r

end Sys2Proof.Machine
end

