-- ==== Sys2Proof/Machine/Csr.lean ====
section
/-! DEFINITION. Reading and writing the four Core Debug Registers (40_csr_access.md R111 to R115), shared by the CSR
instructions and the debugger's abstract commands. -/

namespace Sys2Proof.Machine

/-- A field's value at its place in `dcsr`. -/
def putField {n : Nat} (lsb : Nat) (v : BitVec n) : BitVec 32 := v.setWidth 32 <<< lsb

/-- A one-bit field at its place in `dcsr`. -/
def putBit (lsb : Nat) (b : Bool) : BitVec 32 := putField lsb (BitVec.ofBool b)

/-- `PackDcsr` over its parts (40_csr_access.md R112): the stored fields, `debugver` and `nmip`, under a layout. -/
def packDcsr (l : DcsrLayout) (debugver : BitVec 4) (nmip : Bool) (d : Dcsr) : BitVec 32 :=
  putField l.debugver debugver ||| putBit l.ebreakvs d.ebreakvs ||| putBit l.ebreakvu d.ebreakvu |||
  putBit l.ebreakm d.ebreakm ||| putBit l.ebreaks d.ebreaks ||| putBit l.ebreaku d.ebreaku |||
  putBit l.stepie d.stepie ||| putBit l.stopcount d.stopcount ||| putBit l.stoptime d.stoptime |||
  putField l.cause d.cause ||| putBit l.v d.v ||| putBit l.mprven d.mprven ||| putBit l.nmip nmip |||
  putBit l.step d.step ||| putField l.prv d.prv

/-- The fields of a written value under a layout (40_csr_access.md R113). -/
def unpackDcsr (l : DcsrLayout) (w : BitVec 32) : Dcsr :=
  { ebreakvs := w.getLsbD l.ebreakvs
    ebreakvu := w.getLsbD l.ebreakvu
    ebreakm := w.getLsbD l.ebreakm
    ebreaks := w.getLsbD l.ebreaks
    ebreaku := w.getLsbD l.ebreaku
    stepie := w.getLsbD l.stepie
    stopcount := w.getLsbD l.stopcount
    stoptime := w.getLsbD l.stoptime
    cause := w.extractLsb' l.cause 3
    v := w.getLsbD l.v
    mprven := w.getLsbD l.mprven
    step := w.getLsbD l.step
    prv := w.extractLsb' l.prv 2 }

/-- The 32 bits `dcsr` reads as. -/
def State.dcsrBits (s : State) : BitVec 32 := packDcsr s.cfg.layout (debugverCode s.cfg.debugver) s.nmip s.dcsr

/-- What a write of a bit stores: the written bit, or the hardwired value (40_csr_access.md R113). -/
def writtenBit (impl : BitImpl) (b : Bool) : Bool :=
  match impl with
  | .writable => b
  | .hardwired0 => false
  | .hardwired1 => true

/-- `P.PRV_LEGALIZE` (10_state.md R28): the written mode where the hart supports it and the debugger may change to it
(staying where one is, is no change); otherwise some supported mode. -/
def prvLegalize (c : Config) (old new : Bool × BitVec 2) : Bool × BitVec 2 :=
  match c.prvPolicy with
  | .toM => supportedOrM c new
  | .implementation =>
    if supported c new && (decide (new = old) || Config.prvAllowed c old new) then new
    else supportedOrM c (Config.prvChoice c old new)

/-- `P.DPC_LEGALIZE` (10_state.md R41): low bits clear; a valid address, or an invalid one the register can hold, is
kept; another invalid address becomes some invalid address. DESIGN CHOICE (notes/assumptions/29.md): the low bits are
cleared first, so that what is stored does not depend on the low bits written, for an invalid address neither. -/
def dpcLegalize (c : Config) (w : Word) : Word :=
  match c.dpcPolicy with
  | .clearLow => instrAddress c w
  | .implementation =>
    if Config.validAddress c (instrAddress c w) || Config.canHoldInvalid c (instrAddress c w) then instrAddress c w
    else if Config.canHoldInvalid c (instrAddress c (Config.convertInvalid c (instrAddress c w))) &&
        !Config.validAddress c (instrAddress c (Config.convertInvalid c (instrAddress c w))) then
      instrAddress c (Config.convertInvalid c (instrAddress c w))
    else instrAddress c w

/-- What `WriteDcsr` stores of the fields `f` of a written value (40_csr_access.md R113). -/
def legalizeDcsr (c : Config) (d f : Dcsr) : Dcsr :=
  { ebreakvs := c.hasH && f.ebreakvs
    ebreakvu := c.hasH && f.ebreakvu
    ebreakm := f.ebreakm
    ebreaks := c.hasS && f.ebreaks
    ebreaku := c.hasU && f.ebreaku
    stepie := c.stepieWritable && f.stepie
    stopcount := writtenBit c.stopcountImpl f.stopcount
    stoptime := writtenBit c.stoptimeImpl f.stoptime
    cause := d.cause
    v := (prvLegalize c (d.v, d.prv) (f.v, f.prv)).1
    mprven := writtenBit c.mprvenImpl f.mprven
    step := f.step
    prv := (prvLegalize c (d.v, d.prv) (f.v, f.prv)).2 }

/-- `WriteDcsr` (40_csr_access.md R113). -/
def State.writeDcsr (s : State) (w : Word) : State :=
  let d := legalizeDcsr s.cfg s.dcsr (unpackDcsr s.cfg.layout (w.setWidth 32))
  { s with
    dcsr := d
    stoptimeSetInDebug := s.stoptimeSetInDebug || (s.debugMode && !s.dcsr.stoptime && d.stoptime) }

/-- `ReadCsr` (40_csr_access.md R112, R114, R115). A scratch register that `hartinfo` does not mention reads as a free
value (10_state.md R48). -/
def State.readCsr (s : State) : DebugCsr → Word
  | .dcsr => s.dcsrBits.setWidth 64
  | .dpc => s.dpc
  | .dscratch0 => if mentioned s.cfg .dscratch0 then s.dscratch0 else s.draw .readScratch0
  | .dscratch1 => if mentioned s.cfg .dscratch1 then s.dscratch1 else s.draw .readScratch1

/-- `WriteCsr` (40_csr_access.md R113 to R115). -/
def State.writeCsr (s : State) (r : DebugCsr) (w : Word) : State :=
  match r with
  | .dcsr => s.writeDcsr w
  | .dpc => { s with dpc := dpcLegalize s.cfg w }
  | .dscratch0 => { s with dscratch0 := trunc s.cfg w }
  | .dscratch1 => { s with dscratch1 := trunc s.cfg w }

/-- What the six CSR instructions share (40_csr_access.md R111, R116 to R121): the access check; the old value into
`x[rd]`; the write, where the form makes one. The operand was read before, so `rd` may be its register. A CSR that is none
of the four is the base hart's (30_encoding.md R99). A write of a scratch register that the debugger may not write is refused
(70_reset_and_hazards.md R212). The instruction counts before its own write takes effect
(20_memory.md R83). -/
def csrInstr (i : Instr) (rd : Reg) (csr : CsrAddr) (op : CsrOp) (operand : Word) (writes : Bool) (s : State) :
    Host.Outcome State Fault Refusal :=
  match csrAt csr with
  | none => .next (s.baseInstr (encode i) (some i.length))
  | some r =>
    if s.csrAccessible r then
      if writes && !s.mayWrite r then .refused .scratchNotMentioned
      else
        let t := (s.tick true false).setReg rd (s.readCsr r)
        .next (if writes then t.writeCsr r (csrNewValue op (s.readCsr r) operand) else t)
    else .next (s.raise (.illegalInstruction (encode i)))

end Sys2Proof.Machine
end

