-- ==== Sys2Proof/Machine/Breakpoint.lean ====
section
/-! DEFINITION. `ebreak` and `c.ebreak` (41_ebreak.md R130 to R134). -/

namespace Sys2Proof.Machine

/-- What the two share. In Debug Mode (R134): the Program Buffer ends, the hart stays halted. Outside (R131): by the
governing bit of the mode, entry into Debug Mode at the address of the instruction, or the breakpoint exception. -/
def ebreakEffect (s : State) : Host.Outcome State Fault Refusal :=
  if s.debugMode then .next ((s.tick true false).setProgbuf none)
  else
    match s.ebreakToDebug with
    | some true => .next ((s.tick true true).enterDebug .ebreak s.base.pc)
    | some false => .next (s.raise (.breakpoint s.base.pc))
    | none => .fault .noSuchMode

/-- `ebreak` (R131). -/
def execEbreak (s : State) : Host.Outcome State Fault Refusal := ebreakEffect s

/-- `c.ebreak` (R132): as `ebreak` where IALIGN is 16; elsewhere the encoding is the base hart's. -/
def execCEbreak (s : State) : Host.Outcome State Fault Refusal :=
  if existsOn s.cfg .cEbreak then ebreakEffect s
  else .next (s.baseInstr (encode .cEbreak) (some (Instr.length .cEbreak)))

end Sys2Proof.Machine
end

