-- ==== Sys2Proof/Machine/CsrInstructions.lean ====
section
/-! DEFINITION. The six CSR instructions (40_csr_access.md R116 to R121). -/

namespace Sys2Proof.Machine

/-- `csrrw rd, csr, rs1` (R116): the write always happens. -/
def execCsrrw (rd : Reg) (csr : CsrAddr) (rs1 : Reg) (s : State) : Host.Outcome State Fault Refusal :=
  csrInstr (.csrrw rd csr rs1) rd csr .write (s.getReg rs1) true s

/-- `csrrs rd, csr, rs1` (R117): no write when `rs1` is `x0`. -/
def execCsrrs (rd : Reg) (csr : CsrAddr) (rs1 : Reg) (s : State) : Host.Outcome State Fault Refusal :=
  csrInstr (.csrrs rd csr rs1) rd csr .set (s.getReg rs1) (decide (rs1 ≠ 0)) s

/-- `csrrc rd, csr, rs1` (R118): no write when `rs1` is `x0`. -/
def execCsrrc (rd : Reg) (csr : CsrAddr) (rs1 : Reg) (s : State) : Host.Outcome State Fault Refusal :=
  csrInstr (.csrrc rd csr rs1) rd csr .clear (s.getReg rs1) (decide (rs1 ≠ 0)) s

/-- `csrrwi rd, csr, uimm` (R119): the write always happens. -/
def execCsrrwi (rd : Reg) (csr : CsrAddr) (uimm : Uimm) (s : State) : Host.Outcome State Fault Refusal :=
  csrInstr (.csrrwi rd csr uimm) rd csr .write (uimmValue uimm) true s

/-- `csrrsi rd, csr, uimm` (R120): no write when `uimm` is 0. -/
def execCsrrsi (rd : Reg) (csr : CsrAddr) (uimm : Uimm) (s : State) : Host.Outcome State Fault Refusal :=
  csrInstr (.csrrsi rd csr uimm) rd csr .set (uimmValue uimm) (decide (uimm ≠ 0)) s

/-- `csrrci rd, csr, uimm` (R121): no write when `uimm` is 0. -/
def execCsrrci (rd : Reg) (csr : CsrAddr) (uimm : Uimm) (s : State) : Host.Outcome State Fault Refusal :=
  csrInstr (.csrrci rd csr uimm) rd csr .clear (uimmValue uimm) (decide (uimm ≠ 0)) s

end Sys2Proof.Machine
end

