-- ==== Sys2Proof/Machine/DebugReturn.lean ====
section
/-! DEFINITION. `dret` (42_dret.md R140, R141). -/

namespace Sys2Proof.Machine

/-- `dret`: resumes in Debug Mode where the hart has it (R140); an illegal instruction outside Debug Mode and on a hart
without it (R141). -/
def execDret (s : State) : Host.Outcome State Fault Refusal :=
  if s.debugMode && existsOn s.cfg .dret then .next (s.tick true false).resume
  else .next (s.raise (.illegalInstruction (encode .dret)))

end Sys2Proof.Machine
end

