-- ==== Sys2Proof/Machine/Hart.lean ====
section
/-! DEFINITION. One step the hart takes: `StepRunning` outside Debug Mode (60_exceptions.md R171), one instruction of the
Program Buffer in Debug Mode (R185). -/

namespace Sys2Proof.Machine

/-- The instruction bytes decode to, if it is one of this spec. -/
def decoded (bytes : List Byte) : Option Instr :=
  match decode bytes with
  | .ok (i, _) => some i
  | .error _ => none

/-- The requests that became present while the step was taken (R171, "present now"). -/
def State.lateRequests (s : State) (inputs : HartInputs) : State :=
  { s with haltreq := s.haltreq || inputs.lateHaltreq, group := s.group || inputs.lateGroup }

/-- The jump of a `dpc` write while running, once its instructions have executed (10_state.md R43); the address jumped from
is noted (70_reset_and_hazards.md R217). -/
def State.takeJump (s : State) : State :=
  match s.pendingJump with
  | some (0, w) =>
    { s with
      base := { s.base with pc := dpcLegalize s.cfg w }
      pendingJump := none
      pcHistory := s.base.pc :: s.pcHistory }
  | some (_ + 1, _) => s
  | none => s

/-- Note the address of the instruction at `pc`, about to execute (10_state.md R42). -/
def State.notePc (s : State) : State := { s with pcHistory := s.base.pc :: s.pcHistory }

/-- Execute the instruction at `pc`: one of this spec by its meaning, any other by the base hart, which also takes the
fault of a fetch that fails (R171). -/
def State.executeAtPc (s : State) : Host.Outcome State Fault Refusal :=
  match decoded s.fetch with
  | some i => exec i s.notePc
  | none => .next (s.notePc.baseInstr s.fetch (instrLength s.fetch))

/-- The end of a step outside Debug Mode (R171): a trigger that fired after the instruction is carried to the next one,
and with `dcsr.step` set the hart enters Debug Mode at the successor address. An instruction that has itself entered Debug
Mode is not followed by this. -/
def State.afterInstr (s : State) (inputs : HartInputs) : State :=
  let t := s.lateRequests inputs
  if t.debugMode then t
  else
    let u := { t with
      trigAfterPending := t.cfg.hasTriggers && inputs.trigAfter
      pendingJump := t.pendingJump.map fun (j : Nat × Word) => (j.1 - 1, j.2) }
    if u.dcsr.step then
      match highest u.cfg (.step :: u.asyncReasons) with
      | some r => u.enterDebug r u.base.pc
      | none => u
    else u

/-- A step in which an interrupt is taken: the trap is the step (60_exceptions.md R174, 92_eei_decisions.md D20), or, on a
hart that does so, the handler's first instruction executes too. DESIGN CHOICE (notes/assumptions/17.md): in that case no
trigger before the handler's first instruction is looked at, `trigBefore` being about the instruction at `pc` where the step
began. -/
def State.interruptStep (s : State) (inputs : HartInputs) : Host.Outcome State Fault Refusal :=
  let t := s.takeInterrupt
  if s.cfg.stepRunsHandler && s.dcsr.step then mapNext (fun u => u.afterInstr inputs) t.executeAtPc
  else .next (t.afterInstr inputs)

/-- `StepRunning` (R171). When a reason is present the hart enters Debug Mode at `pc`, the instruction there having no
effect; when that reason is ebreak, the meaning of the `ebreak` makes the entry. -/
def State.runStep (s0 : State) (inputs : HartInputs) : Host.Outcome State Fault Refusal :=
  let s := s0.takeJump
  match highest s.cfg (s.reasonsBefore inputs (decoded s.fetch)) with
  | some .ebreak => mapNext (fun u => u.afterInstr inputs) s.executeAtPc
  | some r => .next (((s.tick false false).enterDebug r s.base.pc).lateRequests inputs)
  | none =>
    if s.irqReady && !s.interruptsMasked then s.interruptStep inputs
    else mapNext (fun u => u.afterInstr inputs) s.executeAtPc

/-- One instruction of the Program Buffer, whose remaining bytes are given. Bytes that hold no whole instruction raise an
illegal-instruction exception, and so do bytes that begin an encoding longer than 32 bits, whose length 30_encoding.md R95
does not give (DESIGN CHOICE, notes/assumptions/23.md). -/
def State.progbufInstr (s : State) (bytes : List Byte) : Host.Outcome State Fault Refusal :=
  match decode bytes with
  | .ok (i, rest) => exec i (s.setProgbuf (some rest))
  | .error _ =>
    match instrLength bytes with
    | some n =>
      if n ≤ bytes.length then
        .next ((s.setProgbuf (some (bytes.drop n))).baseInstr (bytes.take n) (some n))
      else .next (s.raise (.illegalInstruction bytes))
    | none => .next (s.raise (.illegalInstruction bytes))

/-- A halted hart whose Program Buffer is not executing (00_scope.md P27): it only counts, or executes an instruction of its
own, which finds a scratch register as 10_state.md R48 leaves it. -/
def State.haltedStep (s : State) : Host.Outcome State Fault Refusal :=
  match s.cfg.debugExec with
  | .progbufOnly => .next (s.tick false false)
  | .implementation =>
    match Config.debugCode s.cfg s.draws s.base with
    | [] => .next (s.tick false false)
    | b :: bs =>
      match decoded (b :: bs) with
      | some i => exec i s.freshScratch
      | none => .next (s.freshScratch.baseInstr (b :: bs) (instrLength (b :: bs)))

/-- A step in Debug Mode: the next instruction of the Program Buffer while it executes; its end when nothing is left of
it, a step that counts like any other (notes/assumptions/19.md); otherwise the halted hart's own. -/
def State.debugStep (s : State) : Host.Outcome State Fault Refusal :=
  match s.progbuf with
  | none => s.haltedStep
  | some [] => .next ((s.tick false false).setProgbuf none).closeProgbuf
  | some (b :: bs) => mapNext State.closeProgbuf (s.progbufInstr (b :: bs))

/-- One step the hart takes. In Debug Mode the reasons are ignored (60_exceptions.md R181) and triggers do not fire
(R183). -/
def State.hartStep (s : State) (inputs : HartInputs) : Host.Outcome State Fault Refusal :=
  if s.debugMode then mapNext (fun u => u.lateRequests inputs) s.debugStep
  else s.runStep inputs

/-- Store an instruction's bytes where the hart's next step takes its instruction from: the Program Buffer in Debug Mode,
memory at `pc` otherwise (on a hart that fetches directly). Nothing is to happen before it, and no reason to enter Debug
Mode, interrupt or jump is pending (notes/assumptions/15.md). -/
def State.placeInstr (s : State) (bytes : List Byte) : State :=
  if s.debugMode then { s with progbuf := some bytes, env := [] }
  else
    { s with
      base := { s.base with mem := s.base.mem.writeRun (addressCount s.cfg) s.base.pc.toNat bytes }
      env := []
      haltreq := false
      group := false
      resethaltPresent := false
      trigAfterPending := false
      irqReady := false
      pendingJump := none }

end Sys2Proof.Machine
end

