-- ==== Sys2Proof/Machine/Reset.lean ====
section
/-! DEFINITION. The event `Reset` of a machine that is under way (70_reset_and_hazards.md R200 to R202). -/

namespace Sys2Proof.Machine

/-- The state the reset itself leaves (R200): the fields of `dcsr` at their reset values, `dpc` and the scratch registers
free, the base hart reset into M-mode at its reset `pc`. What the host and the platform hold (requests, inputs, `mtime`)
stays, and so do the addresses the hart had as `pc` since it last resumed (R217). -/
def State.resetCore (s : State) : State :=
  let e := Config.baseReset s.cfg s.draws s.base
  let t := s.applyEffect none e
  { t with
    dcsr := Dcsr.reset s.cfg
    dpc := instrAddress s.cfg (s.draw .resetDpc)
    dscratch0 := s.draw .resetScratch0
    dscratch1 := s.draw .resetScratch1
    debugMode := false
    trigAfterPending := false
    timeAtEntry := none
    stoptimeSetInDebug := false
    scratchStale := false
    progbuf := none
    pendingJump := none
    pcHistory := if s.debugMode then s.pcHistory else s.base.pc :: s.pcHistory
    resethaltPresent := s.resethaltArmed
    draws := s.draws + 1
    base := { t.base with pc := instrAddress s.cfg s.cfg.resetPc, priv := 3, virt := false } }

/-- `Reset`: with the halt-on-reset request armed the hart enters Debug Mode for resethaltreq before executing any
instruction (R202); or, on a hart that records the highest reason present (60_exceptions.md R160), the entry is left to its
next step, where resethaltreq is present (R155, R171; notes/assumptions/26.md). -/
def State.resetEvent (s : State) : State :=
  let t := s.resetCore
  if t.resethaltPresent && !t.cfg.resetHaltByOrder then t.enterDebug .resethaltreq t.base.pc else t

end Sys2Proof.Machine
end

