-- ==== Sys2Proof/Machine/HostMoves.lean ====
section
/-! DEFINITION. The effect of each host move and platform input (60_exceptions.md R185, 10_state.md R42 and R43). -/

namespace Sys2Proof.Machine

/-- The Program Buffer starts to execute; none leaves it alone. -/
def State.startProgbuf (s : State) (instrs : Option (List Byte)) : State :=
  match instrs with
  | some bytes => s.setProgbuf (some bytes)
  | none => s

/-- A value is returned to the debugger. -/
def State.returnToDebugger (s : State) (w : Word) : State :=
  { s with abstractResult := some w, draws := s.draws + 1 }

/-- The events left to happen. -/
def State.setEnv (s : State) (env : List Event) : State := { s with env := env }

/-- `AbstractRead(csr)` (40_csr_access.md R124), with `postexec` the Program Buffer after it (R125). -/
def State.abstractRead (s : State) (r : DebugCsr) (postexec : Option (List Byte)) : Host.Outcome State Fault Refusal :=
  if s.debugMode then
    if present s.cfg r then
      let t := s.commandBoundary
      .next ((t.returnToDebugger (t.readCsr r)).startProgbuf postexec)
    else .refused .abstractAbsentRegister
  else .refused .abstractWhileRunning

/-- `AbstractWrite(csr, w)` (40_csr_access.md R124), under the duty of R127; with `postexec` the Program Buffer after it
(R125). -/
def State.abstractWrite (s : State) (r : DebugCsr) (w : Word) (postexec : Option (List Byte)) :
    Host.Outcome State Fault Refusal :=
  if s.debugMode then
    if present s.cfg r then
      if mentioned s.cfg r then .next ((s.commandBoundary.writeCsr r w).startProgbuf postexec)
      else .refused .scratchNotMentioned
    else .refused .abstractAbsentRegister
  else .refused .abstractWhileRunning

/-- The addresses a read of `dpc` while running may return: those the hart had as `pc` since it last resumed
(10_state.md R42, 70_reset_and_hazards.md R217). -/
def State.recentAddresses (s : State) : List Word := s.base.pc :: s.pcHistory

/-- `AbstractReadDpcRunning` (10_state.md R42). -/
def State.abstractReadDpcRunning (s : State) : Host.Outcome State Fault Refusal :=
  if !s.debugMode && s.cfg.absDpcReadRunning then
    .next (s.returnToDebugger
      (s.recentAddresses.getD (Config.recentIndex s.draws % s.recentAddresses.length) s.base.pc))
  else .refused .moveNotAvailable

/-- `AbstractWriteDpcRunning(w)` (10_state.md R43). DESIGN CHOICE (notes/assumptions/27.md): the stored `dpc` is unchanged
until the next entry into Debug Mode. 10_state.md R36 lists this write among the changes of `dpc`, R43 gives it an effect on
`pc` only. -/
def State.abstractWriteDpcRunning (s : State) (w : Word) : Host.Outcome State Fault Refusal :=
  if !s.debugMode && s.cfg.absDpcWriteRunning then
    .next { s with pendingJump := some (Config.jumpDelay s.draws, w), draws := s.draws + 1 }
  else .refused .moveNotAvailable

/-- A move through which the debugger acts on a halted hart. It waits while the Program Buffer executes
(20_memory.md R82). -/
def Event.waits : Event → Bool
  | .hart _ => false
  | .haltReq => false
  | .clearHaltReq => false
  | .armResetHaltReq => false
  | .disarmResetHaltReq => false
  | .resumeReq => true
  | .abstractRead _ _ => true
  | .abstractWrite _ _ _ => true
  | .abstractReadDpcRunning => true
  | .abstractWriteDpcRunning _ => true
  | .execProgbuf _ => true
  | .reset => false
  | .nmi _ => false
  | .mtimeAdvance _ => false
  | .haltGroup _ => false
  | .interrupt _ => false

/-- The effect of an event (60_exceptions.md R185). A move whose precondition does not hold is not offered: the run is
refused. -/
def State.applyEvent (s : State) (e : Event) : Host.Outcome State Fault Refusal :=
  match e with
  | .hart inputs => s.hartStep inputs
  | .haltReq => .next { s with haltreq := true }
  | .clearHaltReq => .next { s with haltreq := false }
  | .armResetHaltReq => .next { s with resethaltArmed := true }
  | .disarmResetHaltReq => .next { s with resethaltArmed := false }
  | .resumeReq => if s.debugMode then .next s.resume else .refused .moveNotAvailable
  | .abstractRead r postexec => s.abstractRead r postexec
  | .abstractWrite r w postexec => s.abstractWrite r w postexec
  | .abstractReadDpcRunning => s.abstractReadDpcRunning
  | .abstractWriteDpcRunning w => s.abstractWriteDpcRunning w
  | .execProgbuf instrs =>
    if s.debugMode then .next (s.commandBoundary.startProgbuf (some instrs)) else .refused .moveNotAvailable
  | .reset => .next s.resetEvent
  | .nmi pending => .next { s with nmiPending := pending, nmiSeen := s.nmiSeen || pending }
  | .mtimeAdvance n => .next { s with mtime := s.mtime + n }
  | .haltGroup present => .next { s with group := present }
  | .interrupt ready => .next { s with irqReady := ready }

/-- The next thing to happen: the first event, unless it is a debugger command that waits for the Program Buffer; with
none left, a step of the hart (notes/assumptions/14.md). -/
def State.advance (s : State) : Host.Outcome State Fault Refusal :=
  match s.env with
  | [] => s.hartStep {}
  | e :: rest => if s.progbuf.isSome && e.waits then s.hartStep {} else (s.setEnv rest).applyEvent e

/-- Why a run of this hart has no meaning in the model, if it has none: no conforming debug support
(92_eei_decisions.md D32), or an NMI after which debugging is not reliable (93_implementation_defined.md U8). -/
def State.outsideSpec (s : State) : Option Refusal :=
  match s.cfg.debugver with
  | .none => some .noDebugSupport
  | .custom => some .customDebug
  | .v1_0 => if !s.cfg.nmiDebugReliable && (s.nmip || s.nmiSeen) then some .nmiUnreliable else none

/-- A state from which there is no successor: a reserved `cause` (93_implementation_defined.md U3). -/
def State.stuck (s : State) : Option Fault := if s.dcsr.cause = 7 then some .reservedCause else none

end Sys2Proof.Machine
end

