-- ==== Sys2Proof/Machine/Step.lean ====
section
/-! DEFINITION. The step of the whole machine, and the host's way to place an instruction. -/

namespace Sys2Proof.Machine

/-- One step of the machine: nothing where the hart or the run is outside the spec or stuck; otherwise the next thing to
happen. -/
def step (s : State) : Host.Outcome State Fault Refusal :=
  match s.outsideSpec with
  | some r => .refused r
  | none =>
    match s.stuck with
    | some f => .fault f
    | none => s.advance

/-- `s` with an instruction stored where `step` fetches its next instruction (the host's fixed name). -/
def State.withFetchWord (s : State) (nbits w : Nat) : State := s.placeInstr (tableBytes nbits w)

end Sys2Proof.Machine
end

