-- ==== Sys2Proof/Safety.lean ====
section
/-! DEFINITION. What a sound state is, in the terms the claims use. -/

namespace Sys2Proof.Machine

/-- A carrier word holds an XLEN-bit value. -/
abbrev Fits (c : Config) (w : Word) : Prop := trunc c w = w

/-- A word is an instruction address: XLEN bits, low bits clear (10_state.md R39). -/
abbrev IsInstrAddress (c : Config) (w : Word) : Prop := instrAddress c w = w

/-- The trap registers hold XLEN-bit values. -/
abbrev TrapRegs.Fits (c : Config) (t : TrapRegs) : Prop := TrapRegs.trunc c t = t

/-- The hardwired fields of `dcsr` read as the configuration says (10_state.md R15, R16, R18 to R22, R24, R25), and `v`,
`prv` encode a mode the hart has (R28). -/
structure Dcsr.Legal (c : Config) (d : Dcsr) : Prop where
  ebreakvs  : c.hasH = false → d.ebreakvs = false
  ebreakvu  : c.hasH = false → d.ebreakvu = false
  ebreaks   : c.hasS = false → d.ebreaks = false
  ebreaku   : c.hasU = false → d.ebreaku = false
  stepie    : c.stepieWritable = false → d.stepie = false
  stopcount : writtenBit c.stopcountImpl d.stopcount = d.stopcount
  stoptime  : writtenBit c.stoptimeImpl d.stoptime = d.stoptime
  mprven    : writtenBit c.mprvenImpl d.mprven = d.mprven
  mode      : supported c (d.v, d.prv) = true
  cause     : d.cause ≠ 7

/-- The base hart's part of a sound state (10_state.md R55, R56). -/
structure Base.Sound (c : Config) (b : Base) : Prop where
  x0     : b.x[0] = 0
  x      : ∀ r : Reg, Fits c b.x[r]
  pc     : Fits c b.pc
  mode   : supported c (b.virt, b.priv) = true
  trapM  : b.trapM.Fits c
  trapS  : b.trapS.Fits c
  trapVS : b.trapVS.Fits c
  mem    : b.mem.wf
  memTop : ∀ cell ∈ b.mem, cell.1 < addressCount c

/-- A sound state: what every run keeps. -/
structure State.Sound (s : State) : Prop where
  dcsr     : s.dcsr.Legal s.cfg
  base     : s.base.Sound s.cfg
  /-- R39 -/
  dpc      : IsInstrAddress s.cfg s.dpc
  scratch0 : Fits s.cfg s.dscratch0
  scratch1 : Fits s.cfg s.dscratch1
  /-- The `pc` of a running hart is aligned (20_memory.md R77). -/
  pc       : s.debugMode = false → IsInstrAddress s.cfg s.base.pc
  /-- "`cause` is in 1..6 whenever `debug_mode` is true" (10_state.md R23). -/
  cause    : s.debugMode = true → s.dcsr.cause ≠ 0
  /-- The entry into Debug Mode latched `mtime` (10_state.md R52). -/
  entered  : s.debugMode = true → s.timeAtEntry.isSome = true
  /-- `mtime` does not decrease (60_exceptions.md R192). -/
  time     : ∀ t, s.timeAtEntry = some t → t ≤ s.mtime
  /-- The Program Buffer executes in Debug Mode only (60_exceptions.md R185). -/
  progbuf  : s.debugMode = false → s.progbuf = none
  /-- 10_state.md R54: cleared by every entry into Debug Mode. -/
  trigHalt : s.debugMode = true → s.trigAfterPending = false
  /-- 10_state.md R54: always false where there are no triggers. -/
  trigNone : s.cfg.hasTriggers = false → s.trigAfterPending = false

end Sys2Proof.Machine
end

