-- ==== Sys2Proof/Certificates/Slice0/Obligations.lean ====
section
/-! DEFINITION. The statements for the provers, and the words they are written in. -/

namespace Sys2Proof.Claims

open Sys2Proof Sys2Proof.Machine

/-- Every byte of memory reads as before. -/
def SameMemory (s t : State) : Prop := ∀ a : Nat, t.readByte a = s.readByte a

/-- Nothing but the counters (and the number of the next free value) differs. -/
def OnlyCounted (s t : State) : Prop :=
  t = { s with
    draws := t.draws
    base := { s.base with
      cycle := t.base.cycle, instret := t.base.instret, localCounters := t.base.localCounters } } ∧
  SameMemory s t

/-- No counter that `stopcount` freezes has advanced (60_exceptions.md R190): the hart-local ones, and `cycle` on a single-hart
core that stops it. -/
def CountersFrozen (s t : State) : Prop :=
  t.base.instret = s.base.instret ∧ t.base.localCounters = s.base.localCounters ∧
  (s.cfg.multiHart = false → s.cfg.cycleStops = true → t.base.cycle = s.base.cycle)

/-- `stoptime` counts as set in this stay in Debug Mode (the case that 60_exceptions.md R191 treats apart) exactly if it did
before, or if in Debug Mode it went from 0 to 1. -/
def StoptimeNoted (s t : State) : Prop :=
  t.stoptimeSetInDebug = true ↔
    s.stoptimeSetInDebug = true ∨ (s.debugMode = true ∧ s.dcsr.stoptime = false ∧ t.dcsr.stoptime = true)

/-- The frame of a CSR access in Debug Mode: nothing changes but the four registers, the general registers, the counters and
the note that `stoptime` went from 0 to 1. -/
def CsrFrame (s t : State) : Prop :=
  t = { s with
    dcsr := t.dcsr, dpc := t.dpc, dscratch0 := t.dscratch0, dscratch1 := t.dscratch1
    stoptimeSetInDebug := t.stoptimeSetInDebug
    draws := t.draws
    base := { s.base with
      x := t.base.x, cycle := t.base.cycle, instret := t.base.instret, localCounters := t.base.localCounters } } ∧
  StoptimeNoted s t ∧ SameMemory s t

/-- `x[rd]` holds the value of register `r` from before, every other general register is unchanged (`x0` reads 0). -/
def OldInRd (s t : State) (rd : Reg) (r : DebugCsr) : Prop :=
  ∀ q : Reg, t.getReg q = if q = rd ∧ rd ≠ 0 then trunc s.cfg (s.readCsr r) else s.getReg q

/-- Register `r` holds what a write of `w` stores, the other three are unchanged. -/
def Stored (s t : State) (r : DebugCsr) (w : Word) : Prop :=
  t.dcsr = (if r = .dcsr then legalizeDcsr s.cfg s.dcsr (unpackDcsr s.cfg.layout (w.setWidth 32)) else s.dcsr) ∧
  t.dpc = (if r = .dpc then dpcLegalize s.cfg w else s.dpc) ∧
  t.dscratch0 = (if r = .dscratch0 then trunc s.cfg w else s.dscratch0) ∧
  t.dscratch1 = (if r = .dscratch1 then trunc s.cfg w else s.dscratch1)

/-- None of the four registers is written. -/
def NotStored (s t : State) : Prop :=
  t.dcsr = s.dcsr ∧ t.dpc = s.dpc ∧ t.dscratch0 = s.dscratch0 ∧ t.dscratch1 = s.dscratch1

/-- The six CSR instructions on one CSR address. -/
def csrForms (rd : Reg) (csr : CsrAddr) (rs1 : Reg) (uimm : Uimm) : List Instr :=
  [.csrrw rd csr rs1, .csrrs rd csr rs1, .csrrc rd csr rs1, .csrrwi rd csr uimm, .csrrsi rd csr uimm, .csrrci rd csr uimm]

/-- A trap of mode `tm` is taken at the instruction at `pc`: the exception PC register of the mode holds its address, the
hart goes on in that mode. The trap registers of the mode, `pc`, the mode, `mstatus` and what the base hart keeps to itself
may change, and the counters but `instret`; nothing else does. That the exception PC is the instruction's address and that
no general register and no memory is written is the model's beyond 41_ebreak.md R133 (notes/assumptions/9.md), and so is
that `instret` does not count the instruction (notes/assumptions/19.md). -/
def TrapTaken (s t : State) (tm : TrapMode) : Prop :=
  (t.base.trapRegs tm).epc = s.base.pc ∧
  t.mode = trapModeCode tm ∧
  t = { s with
    draws := t.draws
    base := { s.base.setTrapRegs tm (t.base.trapRegs tm) with
      pc := t.base.pc, priv := t.base.priv, virt := t.base.virt, mprv := t.base.mprv, mpp := t.base.mpp
      other := t.base.other, cycle := t.base.cycle, localCounters := t.base.localCounters } } ∧
  SameMemory s t

/-- In Debug Mode an exception changes nothing but the Program Buffer, which ends, and the counters. -/
def EndsProgbuf (s t : State) : Prop :=
  t.progbuf = none ∧
  t = { s with
    progbuf := none
    draws := t.draws
    base := { s.base with
      cycle := t.base.cycle, instret := t.base.instret, localCounters := t.base.localCounters } } ∧
  SameMemory s t

/-- Debug Mode was entered with a code, at an address: `prv`, `v`, `cause`, `dpc` and the entry's time are recorded, a
carried trigger is dropped. To the addresses the hart had as `pc` since it resumed, `pc` is added. Nothing else changes but
`pc`, which is not modelled in Debug Mode, and the counters. -/
def Entered (s t : State) (code : BitVec 3) (addr : Word) : Prop :=
  t.debugMode = true ∧
  t.dcsr = { s.dcsr with prv := s.base.priv, v := s.cfg.hasH && s.base.virt, cause := code } ∧
  t.dpc = addr ∧
  t.timeAtEntry = some s.mtime ∧
  t.trigAfterPending = false ∧
  (∀ a : Word, a ∈ t.pcHistory ↔ a = s.base.pc ∨ a ∈ s.pcHistory) ∧
  t = { s with
    debugMode := true, dcsr := t.dcsr, dpc := t.dpc, timeAtEntry := t.timeAtEntry
    trigAfterPending := false, resethaltPresent := false, stoptimeSetInDebug := false
    pcHistory := t.pcHistory
    draws := t.draws
    base := { s.base with
      pc := t.base.pc, cycle := t.base.cycle, instret := t.base.instret, localCounters := t.base.localCounters } } ∧
  SameMemory s t

/-- The bit of `dcsr` that 41_ebreak.md R130 names for the mode has the value `b`. -/
def GovernedBy (s : State) (b : Bool) : Prop :=
  (s.base.virt = false ∧ s.base.priv = 3 ∧ s.dcsr.ebreakm = b) ∨
  (s.base.virt = false ∧ s.base.priv = 1 ∧ s.dcsr.ebreaks = b) ∨
  (s.base.virt = false ∧ s.base.priv = 0 ∧ s.dcsr.ebreaku = b) ∨
  (s.base.virt = true ∧ s.base.priv = 1 ∧ s.dcsr.ebreakvs = b) ∨
  (s.base.virt = true ∧ s.base.priv = 0 ∧ s.dcsr.ebreakvu = b)

/-- The instruction is an `ebreak` instruction of the hart: `ebreak`, or `c.ebreak` where IALIGN is 16. -/
def EbreakOf (s : State) (i : Instr) : Prop := i = .ebreak ∨ (i = .cEbreak ∧ s.cfg.ialign = .i16)

/-- Resumed: `pc` from `dpc`, the mode from `v` and `prv`, `mstatus.MPRV` cleared below M-mode. None of the four registers
changes, but what a scratch register holds is from now on not stated (10_state.md R48); the Program Buffer and the list of
addresses `pc` had are cleared; nothing else changes but the counters. -/
def Resumed (s t : State) : Prop :=
  t.debugMode = false ∧
  t.base.pc = s.dpc ∧
  t.base.virt = s.dcsr.v ∧ t.base.priv = s.dcsr.prv ∧
  t.base.mprv = (if s.dcsr.prv = 3 then s.base.mprv else false) ∧
  t = { s with
    debugMode := false, progbuf := none, pcHistory := [], stoptimeSetInDebug := false, scratchStale := true
    draws := t.draws
    base := { s.base with
      pc := t.base.pc, virt := t.base.virt, priv := t.base.priv, mprv := t.base.mprv
      cycle := t.base.cycle, instret := t.base.instret, localCounters := t.base.localCounters } } ∧
  SameMemory s t

/-- The next thing to happen is a reset. -/
def ResetNext (s : State) : Prop := s.env.head? = some .reset

/-- The run is inside the spec and not stuck: `step` does not stop before it starts. -/
def Steps (s : State) : Prop := s.outsideSpec = none ∧ s.stuck = none

/-- The jump of a `dpc` write while running is made before the next instruction (10_state.md R43). -/
abbrev JumpDue (s : State) : Prop := s.pendingJump.map (fun j : Nat × Word => j.1) = some 0

/-- A trigger before the instruction, an asynchronous request, a pending interrupt and a jump that is due are all absent: the
instruction at `pc` is what comes next. -/
def Quiet (s : State) (inputs : HartInputs) : Prop :=
  s.asyncReasons = [] ∧ s.triggerPresent inputs = false ∧ (s.irqReady = false ∨ s.interruptsMasked = true) ∧
  ¬ JumpDue s

/-- The requests that become present while the instruction executes (R171, "present now"), as reasons. -/
def lateReasons (c : Config) (inputs : HartInputs) : List Reason :=
  (if c.hasHaltGroups = true ∧ inputs.lateGroup = true then [.group] else []) ++
  (if inputs.lateHaltreq = true then [.haltreq] else [])

/-- An interrupt or NMI is what comes next: one is ready and not masked, and no reason to enter Debug Mode is present
and no jump due before it (60_exceptions.md R171, R174). -/
def InterruptNext (s : State) (inputs : HartInputs) : Prop :=
  s.irqReady = true ∧ s.interruptsMasked = false ∧ s.reasonsBefore inputs (decoded s.fetch) = [] ∧ ¬ JumpDue s

/-- A step of the hart of configuration `c` with `step` set, in which the hart got to the running state `u`, ends in `t`: Debug Mode is
entered at the `pc` and in the mode of `u`, for the highest of step and the requests that became present meanwhile (the set
R' of R171): cause 4 where there is none, 3 for a halt request in the default order (R160). `step` stays set. -/
def SteppedTo (c : Config) (u t : State) (inputs : HartInputs) : Prop :=
  t.debugMode = true ∧
  (∃ r, highest c (.step :: lateReasons c inputs) = some r ∧ t.dcsr.cause = causeCode c r) ∧
  (lateReasons c inputs = [] → t.dcsr.cause = 4) ∧
  (lateReasons c inputs = [.haltreq] → c.causeOrder = 1 → t.dcsr.cause = 3) ∧
  t.dpc = u.base.pc ∧ t.dcsr.step = true ∧ t.dcsr.prv = u.base.priv ∧ t.dcsr.v = (c.hasH && u.base.virt) ∧
  t.base.x = u.base.x ∧ SameMemory u t

/-- `t` is `u` with the requests present that became present during the step. -/
def WithLateRequests (u t : State) (inputs : HartInputs) : Prop :=
  t = { u with haltreq := u.haltreq || inputs.lateHaltreq, group := u.group || inputs.lateGroup }

/-- The end of a step of the hart outside Debug Mode, from `s`, without `step`, in which the hart got to the running state `u`:
a trigger that fired after it is carried to the next (10_state.md R54), a request that became present meanwhile stays present,
a pending jump has come one instruction closer (10_state.md R43). -/
def CarriedOn (s u t : State) (inputs : HartInputs) : Prop :=
  t = { u with
    trigAfterPending := s.cfg.hasTriggers && inputs.trigAfter
    haltreq := u.haltreq || inputs.lateHaltreq
    group := u.group || inputs.lateGroup
    pendingJump := s.pendingJump.map fun (j : Nat × Word) => (j.1 - 1, j.2) }

/-- The effect of a debugger command that runs the Program Buffer `p` after it, if any, on what is no register: what the
command does not name is unchanged. -/
def CommandFrame (s t : State) (p : Option (List Byte)) : Prop :=
  t = { s with
    dcsr := t.dcsr, dpc := t.dpc, dscratch0 := t.dscratch0, dscratch1 := t.dscratch1
    stoptimeSetInDebug := t.stoptimeSetInDebug
    scratchStale := false
    abstractResult := t.abstractResult
    progbuf := if p.isSome = true then p else s.progbuf
    draws := t.draws }

/-- The pair (`v`, `prv`) of a value written to `dcsr`. -/
def writtenMode (c : Config) (w : Word) : Bool × BitVec 2 :=
  ((w.setWidth 32).getLsbD c.layout.v, (w.setWidth 32).extractLsb' c.layout.prv 2)

/-- A WARL bit after a write of `b`: the written bit where it is writable, the constant where it is hardwired (R113). -/
def StoredBit (impl : BitImpl) (stored b : Bool) : Prop :=
  (impl = .writable → stored = b) ∧ (impl = .hardwired0 → stored = false) ∧ (impl = .hardwired1 → stored = true)

/-- `CheckAccess` fails (R111). -/
def AccessFails (s : State) (r : DebugCsr) : Prop :=
  s.debugMode = false ∨ (r = .dscratch0 ∧ s.cfg.hasDscratch0 = false) ∨ (r = .dscratch1 ∧ s.cfg.hasDscratch1 = false)

end Sys2Proof.Claims

open Sys2Proof Sys2Proof.Machine Sys2Proof.Claims

/-! ### The CSR instructions (40_csr_access.md) -/

/-- `csrrw` (R116), on a register the debugger may write (in the hart's own code, any). -/
def Obligations.CsrrwSwapsRegisterAndCsr : Prop :=
  ∀ (s : State) (rd rs1 : Reg) (r : DebugCsr), s.csrAccessible r = true → s.mayWrite r = true →
    ∃ t, exec (.csrrw rd (csrAddress r) rs1) s = .next t ∧
      OldInRd s t rd r ∧ Stored s t r (s.getReg rs1) ∧ CsrFrame s t

/-- `csrrs` (R117): with `rs1` = `x0` no register is written. -/
def Obligations.CsrrsSetsBits : Prop :=
  ∀ (s : State) (rd rs1 : Reg) (r : DebugCsr), s.csrAccessible r = true → (rs1 ≠ 0 → s.mayWrite r = true) →
    ∃ t, exec (.csrrs rd (csrAddress r) rs1) s = .next t ∧ OldInRd s t rd r ∧
      (if rs1 = 0 then NotStored s t else Stored s t r (s.readCsr r ||| s.getReg rs1)) ∧ CsrFrame s t

/-- `csrrc` (R118). -/
def Obligations.CsrrcClearsBits : Prop :=
  ∀ (s : State) (rd rs1 : Reg) (r : DebugCsr), s.csrAccessible r = true → (rs1 ≠ 0 → s.mayWrite r = true) →
    ∃ t, exec (.csrrc rd (csrAddress r) rs1) s = .next t ∧ OldInRd s t rd r ∧
      (if rs1 = 0 then NotStored s t else Stored s t r (s.readCsr r &&& ~~~s.getReg rs1)) ∧ CsrFrame s t

/-- `csrrwi` (R119). -/
def Obligations.CsrrwiWritesImmediate : Prop :=
  ∀ (s : State) (rd : Reg) (u : Uimm) (r : DebugCsr), s.csrAccessible r = true → s.mayWrite r = true →
    ∃ t, exec (.csrrwi rd (csrAddress r) u) s = .next t ∧
      OldInRd s t rd r ∧ Stored s t r (u.setWidth 64) ∧ CsrFrame s t

/-- `csrrsi` (R120). -/
def Obligations.CsrrsiSetsImmediateBits : Prop :=
  ∀ (s : State) (rd : Reg) (u : Uimm) (r : DebugCsr), s.csrAccessible r = true → (u ≠ 0 → s.mayWrite r = true) →
    ∃ t, exec (.csrrsi rd (csrAddress r) u) s = .next t ∧ OldInRd s t rd r ∧
      (if u = 0 then NotStored s t else Stored s t r (s.readCsr r ||| u.setWidth 64)) ∧ CsrFrame s t

/-- `csrrci` (R121). -/
def Obligations.CsrrciClearsImmediateBits : Prop :=
  ∀ (s : State) (rd : Reg) (u : Uimm) (r : DebugCsr), s.csrAccessible r = true → (u ≠ 0 → s.mayWrite r = true) →
    ∃ t, exec (.csrrci rd (csrAddress r) u) s = .next t ∧ OldInRd s t rd r ∧
      (if u = 0 then NotStored s t else Stored s t r (s.readCsr r &&& ~~~(u.setWidth 64))) ∧ CsrFrame s t

/-- The access check (R111): outside Debug Mode, or on a scratch register the hart does not have, every form raises an
illegal-instruction exception of that instruction, taken as a trap outside Debug Mode and ending the Program Buffer inside it
(60_exceptions.md R184). Nothing is read or written. Otherwise the check passes. That the trap writes no general register and
no memory and saves the address of the instruction is the model's choice, notes/assumptions/9.md; that `instret` does not
count the instruction, notes/assumptions/19.md. -/
def Obligations.FailedCsrAccessRaisesIllegalInstruction : Prop :=
  ∀ (s : State) (rd rs1 : Reg) (u : Uimm) (r : DebugCsr),
    (s.csrAccessible r = true ↔ ¬ AccessFails s r) ∧
    ∀ i ∈ csrForms rd (csrAddress r) rs1 u, AccessFails s r →
      ∃ t, exec i s = .next t ∧ t = s.raise (.illegalInstruction (encode i)) ∧
        (s.debugMode = false → ∃ tm, TrapTaken s t tm) ∧ (s.debugMode = true → EndsProgbuf s t)

/-- A write to a scratch register that `hartinfo` does not mention is refused (70_reset_and_hazards.md R212,
notes/assumptions/22.md), by a writing CSR instruction of the Program Buffer and by an abstract command; a form that does not
write is not. -/
def Obligations.UnmentionedScratchWriteIsRefused : Prop :=
  ∀ (s : State) (rd rs1 : Reg) (u : Uimm) (r : DebugCsr) (w : Word), s.csrAccessible r = true →
    ((r = .dscratch0 ∧ s.cfg.nscratch.val = 0) ∨ (r = .dscratch1 ∧ s.cfg.nscratch.val < 2)) →
    (s.progbuf.isSome = true → ∀ i ∈ csrForms rd (csrAddress r) rs1 u,
      exec i s = .refused .scratchNotMentioned ↔
        i ≠ .csrrs rd (csrAddress r) 0 ∧ i ≠ .csrrc rd (csrAddress r) 0 ∧
        i ≠ .csrrsi rd (csrAddress r) 0 ∧ i ≠ .csrrci rd (csrAddress r) 0) ∧
    s.applyEvent (.abstractWrite r w none) = .refused .scratchNotMentioned

/-- A CSR instruction on another CSR, and `c.ebreak` where IALIGN is 32, are the base hart's (30_encoding.md R99,
notes/assumptions/31.md): the instruction completes as that instruction of the base hart, and the debug layer is untouched, but for the Program Buffer, which an
exception of the base hart ends. -/
def Obligations.BaseHartInstructionsLeaveDebugLayer : Prop :=
  ∀ (s : State) (i : Instr), ((∃ rd csr rs1 u, csrAt csr = none ∧ i ∈ csrForms rd csr rs1 u) ∨
      (i = .cEbreak ∧ s.cfg.ialign = .i32)) →
    ∃ t, exec i s = .next t ∧ t = s.baseInstr (encode i) (some i.length) ∧
      t = { s with progbuf := t.progbuf, draws := t.draws, base := t.base } ∧
      (t.progbuf = s.progbuf ∨ (s.debugMode = true ∧ t.progbuf = none)) ∧ t.getReg 0 = 0

/-- Writing back with `csrrs` and a zero operand changes none of the four registers (R117), in a sound state under the
layout of 10_state.md R29; for `dpc`, where it holds an address the register can hold. -/
def Obligations.SettingNoBitsStoresTheSame : Prop :=
  ∀ (s : State) (rd rs1 : Reg) (r : DebugCsr), s.Sound → s.cfg.layout = DcsrLayout.standard →
    s.csrAccessible r = true → mentioned s.cfg r = true → s.getReg rs1 = 0 →
    (r = .dpc → dpcLegalize s.cfg s.dpc = s.dpc) →
    ∃ t, exec (.csrrs rd (csrAddress r) rs1) s = .next t ∧ NotStored s t

/-- `PackDcsr` (R112) under the layout of 10_state.md R29, zero-extended. -/
def Obligations.DcsrReadsItsFields : Prop :=
  ∀ s : State, s.cfg.layout = DcsrLayout.standard →
    s.readCsr .dcsr =
      ((debugverCode s.cfg.debugver ++ 0#10 ++ BitVec.ofBool s.dcsr.ebreakvs ++ BitVec.ofBool s.dcsr.ebreakvu ++
        BitVec.ofBool s.dcsr.ebreakm ++ 0#1 ++ BitVec.ofBool s.dcsr.ebreaks ++ BitVec.ofBool s.dcsr.ebreaku ++
        BitVec.ofBool s.dcsr.stepie ++ BitVec.ofBool s.dcsr.stopcount ++ BitVec.ofBool s.dcsr.stoptime ++
        s.dcsr.cause ++ BitVec.ofBool s.dcsr.v ++ BitVec.ofBool s.dcsr.mprven ++ BitVec.ofBool s.nmiPending ++
        BitVec.ofBool s.dcsr.step ++ s.dcsr.prv : BitVec 32)).setWidth 64

/-- Under every legal layout (00_scope.md P26) the fields of a packed `dcsr` are the fields it was packed from. -/
def Obligations.DcsrFieldsSurvivePacking : Prop :=
  ∀ (l : DcsrLayout) (dv : BitVec 4) (nmip : Bool) (d : Dcsr), l.wf = true →
    unpackDcsr l (packDcsr l dv nmip d) = d ∧ (packDcsr l dv nmip d).extractLsb' l.debugver 4 = dv ∧
    (packDcsr l dv nmip d).getLsbD l.nmip = nmip

/-- Whatever is written to `dcsr`, `debugver`, `cause` and `nmip` read as before and the unnamed bits read 0 (R113,
10_state.md R12, R30). -/
def Obligations.ReadOnlyDcsrBitsSurviveWrites : Prop :=
  ∀ (s : State) (w : Word), s.cfg.layout = DcsrLayout.standard →
    ((s.writeCsr .dcsr w).dcsrBits &&& 0xf00001c8#32) = (s.dcsrBits &&& 0xf00001c8#32) ∧
    ((s.writeCsr .dcsr w).dcsrBits &&& 0x0ffc4000#32) = 0

/-- What a write of `dcsr` stores (R113), field by field under the layout of 10_state.md R29: `ebreakm` and `step` the written
bit; the bits of a mode the hart does not have 0; `stepie`, `stopcount`, `stoptime` and `mprven` the written bit where
writable, else the constant; `v` and `prv` with the default `P.PRV_LEGALIZE` the written mode where the hart has it, else
M-mode; `cause` as before. No other register changes; that `stoptime` went from 0 to 1 in Debug Mode is noted (60_exceptions.md
R191). -/
def Obligations.DcsrWriteStoresItsFields : Prop :=
  ∀ (s : State) (w : Word) (d : Dcsr), s.cfg.layout = DcsrLayout.standard → (s.writeCsr .dcsr w).dcsr = d →
    d.ebreakm = w.getLsbD 15 ∧ d.step = w.getLsbD 2 ∧
    d.ebreakvs = (s.cfg.hasH && w.getLsbD 17) ∧ d.ebreakvu = (s.cfg.hasH && w.getLsbD 16) ∧
    d.ebreaks = (s.cfg.hasS && w.getLsbD 13) ∧ d.ebreaku = (s.cfg.hasU && w.getLsbD 12) ∧
    d.stepie = (s.cfg.stepieWritable && w.getLsbD 11) ∧
    StoredBit s.cfg.stopcountImpl d.stopcount (w.getLsbD 10) ∧ StoredBit s.cfg.stoptimeImpl d.stoptime (w.getLsbD 9) ∧
    StoredBit s.cfg.mprvenImpl d.mprven (w.getLsbD 4) ∧
    d.cause = s.dcsr.cause ∧
    (s.cfg.prvPolicy = .toM →
      (d.v, d.prv) = if supported s.cfg (w.getLsbD 5, w.extractLsb' 0 2) = true then (w.getLsbD 5, w.extractLsb' 0 2)
        else (false, 3)) ∧
    (s.writeCsr .dcsr w).nmip = s.nmip ∧
    s.writeCsr .dcsr w = { s with dcsr := d, stoptimeSetInDebug := (s.writeCsr .dcsr w).stoptimeSetInDebug } ∧
    StoptimeNoted s (s.writeCsr .dcsr w)

/-- The mode a write of `dcsr` stores (10_state.md R28), under any layout: always a mode the hart has (30_encoding.md R94);
with the default `P.PRV_LEGALIZE` the written mode where the hart has it, else M-mode; and under the implementation's too
the written mode where the hart has it and the debugger is allowed to change to it. That a supported mode written over
itself is always allowed is the model's choice, notes/assumptions/28.md. -/
def Obligations.WrittenModeIsSupported : Prop :=
  (∀ (c : Config) (m : Bool × BitVec 2), supported c m = true ↔
    m = (false, 3) ∨ (m = (false, 1) ∧ c.hasS = true) ∨ (m = (false, 0) ∧ c.hasU = true) ∨
    (m = (true, 1) ∧ c.hasH = true) ∨ (m = (true, 0) ∧ c.hasH = true)) ∧
  ∀ (s : State) (w : Word) (m : Bool × BitVec 2), (s.writeCsr .dcsr w).savedMode = m →
    supported s.cfg m = true ∧
    (s.cfg.prvPolicy = .toM →
      m = if supported s.cfg (writtenMode s.cfg w) = true then writtenMode s.cfg w else (false, 3)) ∧
    (supported s.cfg (writtenMode s.cfg w) = true →
      writtenMode s.cfg w = s.savedMode ∨ Config.prvAllowed s.cfg s.savedMode (writtenMode s.cfg w) = true →
      m = writtenMode s.cfg w)

/-- `P.DPC_LEGALIZE` (10_state.md R41, R39): low bits clear; a valid address with its low bits cleared is kept; an invalid
one becomes some invalid address; the default clears the low bits and keeps the rest. -/
def Obligations.DpcWriteIsLegalized : Prop :=
  ∀ (c : Config) (w : Word), Fits c w →
    (dpcLegalize c w).getLsbD 0 = false ∧ (c.ialign = .i32 → (dpcLegalize c w).getLsbD 1 = false) ∧
    (Config.validAddress c (clearLowBits c w) = true → dpcLegalize c w = clearLowBits c w) ∧
    (Config.validAddress c (clearLowBits c w) = false → Config.validAddress c (dpcLegalize c w) = false) ∧
    (c.dpcPolicy = .clearLow → dpcLegalize c w = clearLowBits c w)

/-- What `dpc` holds after a write is an instruction address, and writing it back stores it again (R117: "every stored value
is already legal"). For an invalid address under the implementation's `P.DPC_LEGALIZE` this is the model's choice,
notes/assumptions/29.md. -/
def Obligations.LegalizedDpcIsStable : Prop :=
  ∀ (s : State) (w : Word), IsInstrAddress s.cfg (s.writeCsr .dpc w).dpc ∧
    (s.writeCsr .dpc w).writeCsr .dpc (s.writeCsr .dpc w).dpc = s.writeCsr .dpc w

/-! ### `ebreak` and `c.ebreak` (41_ebreak.md) -/

/-- Which field governs (R130): in each of the five modes the mode's own bit, and no other, decides whether an `ebreak`
instruction enters Debug Mode. -/
def Obligations.EbreakIsRoutedByItsModesBit : Prop :=
  ∀ (s : State) (i : Instr) (b : Bool), EbreakOf s i → s.debugMode = false → GovernedBy s b →
    ∃ t, exec i s = .next t ∧ t.debugMode = b ∧ (b = false → t = s.raise (.breakpoint s.base.pc))

/-- The address an entering `ebreak` records (60_exceptions.md R166). -/
def Obligations.EbreakRecordsItsOwnAddress : Prop :=
  ∀ (s t : State) (i : Instr), EbreakOf s i → s.debugMode = false → exec i s = .next t → t.debugMode = true →
    t.dpc = s.base.pc

/-- An `ebreak` whose governing bit is 1 enters Debug Mode (R131): cause 1, `dpc` its own address; with `stopcount` the
hart-local counters do not count it, nor does `cycle` on a single-hart core that stops it (60_exceptions.md R190). -/
def Obligations.GovernedEbreakEntersDebugMode : Prop :=
  ∀ (s : State) (i : Instr), EbreakOf s i → s.debugMode = false → GovernedBy s true →
    ∃ t, exec i s = .next t ∧ Entered s t 1 s.base.pc ∧
      (s.dcsr.stopcount = true → CountersFrozen s t)

/-- An `ebreak` whose governing bit is 0 raises a breakpoint exception (R133): code 3, the exception PC is its address,
the trap value 0 or that address; it does not retire; the debug layer is untouched. That the trap writes no general register
and no memory is the model's choice, notes/assumptions/9.md. -/
def Obligations.UngovernedEbreakTakesBreakpoint : Prop :=
  ∀ (s : State) (i : Instr), EbreakOf s i → s.debugMode = false → GovernedBy s false →
    ∃ t tm, exec i s = .next t ∧ TrapTaken s t tm ∧ (t.base.trapRegs tm).cause = 3 ∧
      ((t.base.trapRegs tm).tval = 0 ∨ (t.base.trapRegs tm).tval = s.base.pc) ∧ t.base.instret = s.base.instret

/-- `ebreak` in Debug Mode ends the Program Buffer and changes none of the four registers (R134). -/
def Obligations.EbreakInDebugModeEndsProgbuf : Prop :=
  ∀ (s : State) (i : Instr), EbreakOf s i → s.debugMode = true →
    ∃ t, exec i s = .next t ∧ EndsProgbuf s t ∧ t.debugMode = true

/-- Resuming at an `ebreak` whose governing bit is still 1 enters Debug Mode again with the same `cause` and `dpc`
(R136). -/
def Obligations.ResumingAtEbreakReenters : Prop :=
  ∀ (s : State) (i : Instr), s.debugMode = true → EbreakOf s i → decoded s.resume.fetch = some i →
    GovernedBy s.resume true → s.resume.asyncReasons = [] → s.resume.triggerPresent {} = false →
    s.pendingJump = none →
    ∃ t, s.resume.hartStep {} = .next t ∧ t.debugMode = true ∧ t.dcsr.cause = 1 ∧ t.dpc = s.dpc ∧
      t.dcsr.prv = s.dcsr.prv

/-! ### `dret` and resuming (42_dret.md, 60_exceptions.md section 5) -/

/-- `dret` in Debug Mode (R140) resumes (60_exceptions.md R180, R182). -/
def Obligations.DretResumes : Prop :=
  ∀ s : State, s.debugMode = true → s.cfg.hasDret = true → ∃ t, exec .dret s = .next t ∧ Resumed s t ∧ NotStored s t

/-- `dret`, the encoding 0x7b200073, outside Debug Mode, and everywhere on a hart without it, is an illegal instruction
(R141), which in Debug Mode ends the Program Buffer (60_exceptions.md R184). That the trap writes no general register and no
memory and saves the address of the instruction is the model's choice, notes/assumptions/9.md; that `instret` does not count
the instruction, notes/assumptions/19.md. -/
def Obligations.DretElsewhereIsIllegal : Prop :=
  decodeTableWord 32 0x7b200073 = some .dret ∧
  ∀ s : State, s.debugMode = false ∨ s.cfg.hasDret = false →
    ∃ t, exec .dret s = .next t ∧ t = s.raise (.illegalInstruction (encode .dret)) ∧ t.dcsr = s.dcsr ∧ t.dpc = s.dpc ∧
      t.debugMode = s.debugMode ∧ (s.debugMode = false → ∃ tm, TrapTaken s t tm) ∧
      (s.debugMode = true → EndsProgbuf s t)

/-- The host move `ResumeReq` resumes every halted hart, with or without `dret` (60_exceptions.md R185, R180, R182); and on a
hart with `dret` the two have the same effect (R142), but for what `dret` counts as an instruction (the model's,
notes/assumptions/19.md). -/
def Obligations.ResumeReqEqualsDret : Prop :=
  ∀ s : State, s.debugMode = true →
    ∃ u, s.applyEvent .resumeReq = .next u ∧ Resumed s u ∧
      (s.cfg.hasDret = true → ∃ t, exec .dret s = .next t ∧ OnlyCounted u t)

/-- Debug Mode is left only by `Resume()` (60_exceptions.md R186), by `ResumeReq`, by `dret` in the Program Buffer or, where
the halted hart executes code of its own (00_scope.md P27, notes/assumptions/34.md), by `dret` there, and then to `dpc` in
the mode of `v` and `prv`; or by a reset. -/
def Obligations.DebugModeIsLeftOnlyByResuming : Prop :=
  ∀ s t : State, step s = .next t → s.debugMode = true → t.debugMode = false →
    ResetNext s ∨
    (t.base.pc = s.dpc ∧ t.mode = s.savedMode ∧
      (s.env.head? = some .resumeReq ∨
        (s.cfg.hasDret = true ∧
          ((∃ bytes, s.progbuf = some bytes ∧ decoded bytes = some .dret) ∨
           (s.progbuf = none ∧ s.cfg.debugExec = .implementation ∧
            decoded (Config.debugCode s.cfg s.draws s.base) = some .dret)))))

/-- A halt request present while halted has no effect until the hart has resumed (60_exceptions.md R181): whatever is present, a
halted hart's step with no Program Buffer executing only counts (where it has no code of its own, 00_scope.md P27), and the
step that finds an exhausted Program Buffer ends it and counts, with the consequence for `dpc` (10_state.md R40); with
`stopcount` the counters are frozen (60_exceptions.md R190). That these steps count otherwise is the model's choice,
notes/assumptions/19.md. After the resume the hart halts again at once. -/
def Obligations.HaltRequestHeldWhileHaltedHaltsAgain : Prop :=
  (∀ (s : State) (inputs : HartInputs), s.debugMode = true → s.progbuf = none →
    s.cfg.debugExec = .progbufOnly ∨ Config.debugCode s.cfg s.draws s.base = [] →
    ∃ t, s.hartStep inputs = .next t ∧ OnlyCounted (s.lateRequests inputs) t ∧
      (s.dcsr.stopcount = true → CountersFrozen s t)) ∧
  (∀ (s : State) (inputs : HartInputs), s.debugMode = true → s.progbuf = some [] →
    ∃ t, s.hartStep inputs = .next t ∧ OnlyCounted { s.lateRequests inputs with progbuf := none, dpc := t.dpc } t ∧
      (s.cfg.progbufClobbers = false → t.dpc = s.dpc) ∧
      (s.cfg.progbufClobbers = true → IsInstrAddress s.cfg t.dpc) ∧
      (s.dcsr.stopcount = true → CountersFrozen s t)) ∧
  (∀ s : State, s.debugMode = true → s.haltreq = true → s.resethaltPresent = false → s.groupPresent = false →
    s.pendingJump = none → s.cfg.causeOrder = 1 →
    ∃ t, s.resume.hartStep {} = .next t ∧ Entered s.resume t 3 s.dpc)

/-! ### Entering Debug Mode and single step (60_exceptions.md) -/

/-- The permitted priority orders (R163): the table, by codes; and a sequence of six reasons is in it exactly if group,
trigger, ebreak, step stand in that relative order in it and resethaltreq stands before haltreq. -/
def Obligations.CauseOrdersAreThePermittedOnes : Prop :=
  causeOrders.map (List.map (causeCode Config.standard)) =
    [[5, 3, 6, 2, 1, 4], [5, 6, 3, 2, 1, 4], [5, 6, 2, 3, 1, 4], [5, 6, 2, 1, 3, 4], [5, 6, 2, 1, 4, 3],
     [6, 5, 3, 2, 1, 4], [6, 5, 2, 3, 1, 4], [6, 5, 2, 1, 3, 4], [6, 5, 2, 1, 4, 3], [6, 2, 5, 3, 1, 4],
     [6, 2, 5, 1, 3, 4], [6, 2, 5, 1, 4, 3], [6, 2, 1, 5, 3, 4], [6, 2, 1, 5, 4, 3], [6, 2, 1, 4, 5, 3]] ∧
  ∀ l : List Reason, l ∈ causeOrders ↔
    l.length = 6 ∧ [Reason.group, .trigger, .ebreak, .step].Sublist l ∧ [Reason.resethaltreq, .haltreq].Sublist l

/-- `Highest(R)` (R160): a member of `R` that no other member precedes in the hart's order, there whenever `R` has one;
and with the default order, the table. -/
def Obligations.HighestReasonComesFirst : Prop :=
  ∀ (c : Config) (present : List Reason),
    (highest c present = none ↔ present = []) ∧
    (∀ r, highest c present = some r →
      r ∈ present ∧ ∀ q ∈ present, (causeOrder c).idxOf r ≤ (causeOrder c).idxOf q) ∧
    (c.causeOrder = 1 → highest c present =
      if .resethaltreq ∈ present then some .resethaltreq
      else if .group ∈ present then some .group
      else if .haltreq ∈ present then some .haltreq
      else if .trigger ∈ present then some .trigger
      else if .ebreak ∈ present then some .ebreak
      else if .step ∈ present then some .step
      else none)

/-- A reason that is present and outranks the others enters Debug Mode at `pc`, the instruction there having no effect
(R165, R168, R169, R171), whatever that instruction is; reason ebreak too (41_ebreak.md R131). A pending jump whose
instructions have executed is taken before (10_state.md R43). A request that becomes present meanwhile stays present. -/
def Obligations.PresentReasonEntersDebugMode : Prop :=
  ∀ (s : State) (inputs : HartInputs) (r : Reason), s.debugMode = false →
    highest s.cfg (s.takeJump.reasonsBefore inputs (decoded s.takeJump.fetch)) = some r →
    ∃ t, s.hartStep inputs = .next t ∧
      Entered (s.takeJump.lateRequests inputs) t (causeCode s.cfg r) s.takeJump.base.pc

/-- Single step (R167, R170, R171; R164: step comes before a trigger that fires after the instruction): with `step` set,
one instruction executes and the hart enters Debug Mode at the successor address, the handler's if it trapped (R172). Where
an interrupt is taken (`stepie` 1, R174), its trap is the step, and the handler's address the successor; or, on a hart that
does so (R174's other outcome), the handler's first instruction executes too. That in this other outcome a governed `ebreak`
there makes its own entry, with cause 1, and no trigger before that instruction is looked at, is the model's choice,
notes/assumptions/17.md; that `irqReady` is cleared by taking the interrupt is the model's choice,
notes/assumptions/18.md. -/
def Obligations.StepExecutesOneInstruction : Prop :=
  (∀ (s u : State) (inputs : HartInputs), s.debugMode = false → s.dcsr.step = true → Quiet s inputs →
    s.ebreakPresent (decoded s.fetch) = false → s.executeAtPc = .next u → u.debugMode = false →
    ∃ t, s.hartStep inputs = .next t ∧ SteppedTo s.cfg u t inputs) ∧
  (∀ (s : State) (inputs : HartInputs), s.debugMode = false → s.dcsr.step = true → s.dcsr.stepie = true →
    InterruptNext s inputs →
    (s.cfg.stepRunsHandler = false →
      ∃ t, s.hartStep inputs = .next t ∧ SteppedTo s.cfg s.takeInterrupt t inputs ∧ t.irqReady = false) ∧
    (s.cfg.stepRunsHandler = true → ∀ u, s.takeInterrupt.executeAtPc = .next u →
      ∃ t, s.hartStep inputs = .next t ∧ t.irqReady = false ∧ (u.debugMode = false → SteppedTo s.cfg u t inputs) ∧
        (u.debugMode = true → t.debugMode = true ∧ t.dcsr.cause = 1 ∧ t.dpc = s.takeInterrupt.base.pc)))

/-- A stepped `ebreak` (41_ebreak.md R137): with its governing bit 1, cause 1 at the `ebreak`; with 0, the breakpoint
exception is the stepped instruction: the handler's address, and cause 4, or that of a request that became present meanwhile
and outranks step (60_exceptions.md R171). -/
def Obligations.SteppedEbreak : Prop :=
  ∀ (s : State) (inputs : HartInputs) (i : Instr) (b : Bool), s.debugMode = false → s.dcsr.step = true → Quiet s inputs →
    EbreakOf s i → decoded s.fetch = some i → GovernedBy s b →
    ∃ t, s.hartStep inputs = .next t ∧ t.debugMode = true ∧
      (b = true → t.dcsr.cause = 1 ∧ t.dpc = s.base.pc) ∧
      (b = false → (∃ r, highest s.cfg (.step :: lateReasons s.cfg inputs) = some r ∧ t.dcsr.cause = causeCode s.cfg r) ∧
        (lateReasons s.cfg inputs = [] → t.dcsr.cause = 4) ∧
        ∃ u, exec i s.notePc = .next u ∧ u = s.notePc.raise (.breakpoint s.base.pc) ∧ u.debugMode = false ∧
          t.dpc = u.base.pc)

/-- With `step` 1 and `stepie` 0 a pending interrupt has no influence on the step and stays pending (R174). -/
def Obligations.StepieZeroMasksInterrupts : Prop :=
  ∀ (s : State) (inputs : HartInputs) (ready : Bool), s.debugMode = false → s.dcsr.step = true → s.dcsr.stepie = false →
    { s with irqReady := ready }.hartStep inputs = mapNext (fun t => { t with irqReady := ready }) (s.hartStep inputs)

/-- In Debug Mode no interrupt is taken (R184): a pending one has no influence on the step and stays pending. -/
def Obligations.DebugModeTakesNoInterrupt : Prop :=
  ∀ (s : State) (inputs : HartInputs) (ready : Bool), s.debugMode = true →
    { s with irqReady := ready }.hartStep inputs = mapNext (fun t => { t with irqReady := ready }) (s.hartStep inputs)

/-- Outside Debug Mode no step changes `dcsr`, `dpc` or a scratch register, except an entry into Debug Mode, which writes
`prv`, `v`, `cause` and `dpc` and no scratch register (10_state.md R11, R13, R36, 60_exceptions.md R165,
70_reset_and_hazards.md R210), and a reset. That a write of `dpc` while running leaves the stored `dpc` unchanged is the
model's choice, notes/assumptions/27.md: 10_state.md R36 lists that write among the changes of `dpc`. -/
def Obligations.DebugRegistersAreStableWhileRunning : Prop :=
  ∀ s t : State, step s = .next t → s.debugMode = false → ¬ ResetNext s →
    t.dcsr = { s.dcsr with prv := t.dcsr.prv, v := t.dcsr.v, cause := t.dcsr.cause } ∧
    t.dscratch0 = s.dscratch0 ∧ t.dscratch1 = s.dscratch1 ∧
    (t.debugMode = false → t.dcsr = s.dcsr ∧ t.dpc = s.dpc)

/-- `cause` is written only by an entry into Debug Mode (10_state.md R23), and by a reset. -/
def Obligations.CauseChangesOnlyOnEntry : Prop :=
  ∀ s t : State, step s = .next t → ¬ ResetNext s → t.dcsr.cause ≠ s.dcsr.cause →
    s.debugMode = false ∧ t.debugMode = true

/-- The effective `mstatus.MPRV` and the privilege of loads and stores (20_memory.md R74, R73); instructions execute in
M-mode in Debug Mode, in the hart's mode outside (60_exceptions.md R183). -/
def Obligations.MprvenGatesMprv : Prop :=
  ∀ s : State,
    (s.effectiveMprv = true ↔
      (s.debugMode = true ∧ s.dcsr.mprven = true ∧ s.base.mprv = true) ∨ (s.debugMode = false ∧ s.base.mprv = true)) ∧
    (s.effectiveMprv = true → s.memPriv = s.base.mpp) ∧
    (s.effectiveMprv = false → s.memPriv = if s.debugMode = true then 3 else s.base.priv) ∧
    s.execBase = if s.debugMode = true then { s.base with priv := 3, virt := false } else s.base

/-- `stopcount` freezes the hart-local counters in Debug Mode, and `cycle` on a single-hart core that stops it (R190):
an instruction of this spec does not count, by the `stopcount` from before it (the model's, notes/assumptions/35.md). -/
def Obligations.StopcountFreezesCountersInDebugMode : Prop :=
  ∀ (s t : State) (i : Instr), s.debugMode = true → s.dcsr.stopcount = true → i.wellFormed = true →
    existsOn s.cfg i = true → exec i s = .next t →
    CountersFrozen s t

/-- `time` (R191). With `stoptime` set before the entry: frozen at the entry's `mtime` while halted, the latest `mtime`
after resuming; outside Debug Mode it is `mtime`. In Debug Mode, entered at the time `a` (10_state.md R52): `mtime` with
`stoptime` 0; with `stoptime` 1 that was set before the entry, `a`; with `stoptime` 1 that went from 0 to 1 in this stay,
`a` by the literal formula, or, where the hart draws it (92_eei_decisions.md D19), a value from `a` to `mtime`. No step of a stay
in Debug Mode changes the entry's time or sets `mtime` back, and every step notes whether `stoptime` went from 0 to 1 in it;
the step in which it does is stated too. That a hart which draws shows `mtime` once `stoptime` is 0 again in the same stay is
the model's choice, notes/assumptions/21.md. -/
def Obligations.StoptimeFreezesTimeWhileHalted : Prop :=
  (∀ (s t u v : State) (r : Reason) (addr : Word) (n : Nat), s.debugMode = false → s.enterDebug r addr = t →
    t.applyEvent (.mtimeAdvance n) = .next u → u.applyEvent .resumeReq = .next v →
    t.time = s.mtime ∧ u.time = (if s.dcsr.stoptime = true then s.mtime else s.mtime + n) ∧ v.time = s.mtime + n) ∧
  (∀ s : State, s.debugMode = false → s.time = s.mtime) ∧
  (∀ (s : State) (a : Nat), s.debugMode = true → s.timeAtEntry = some a →
    (s.dcsr.stoptime = false → s.time = s.mtime) ∧
    (s.dcsr.stoptime = true → s.stoptimeSetInDebug = false ∨ s.cfg.lateStoptimeDrawn = false → s.time = a) ∧
    (s.dcsr.stoptime = true → s.stoptimeSetInDebug = true → s.cfg.lateStoptimeDrawn = true → a ≤ s.mtime →
      a ≤ s.time ∧ s.time ≤ s.mtime)) ∧
  (∀ s t : State, step s = .next t → s.debugMode = true → t.debugMode = true → ¬ ResetNext s →
    t.timeAtEntry = s.timeAtEntry ∧ s.mtime ≤ t.mtime ∧ StoptimeNoted s t ∧
    ∀ a : Nat, s.timeAtEntry = some a → s.dcsr.stoptime = false → t.dcsr.stoptime = true →
      (s.cfg.lateStoptimeDrawn = false → t.time = a) ∧
      (s.cfg.lateStoptimeDrawn = true → a ≤ s.mtime → a ≤ t.time ∧ t.time ≤ t.mtime))

/-! ### Reset (70_reset_and_hazards.md) -/

/-- A reset with the halt-on-reset request not armed (R200, R203): `dcsr` at its reset values (10_state.md R32), running in
M-mode at the reset `pc`, `dpc` aligned. -/
def Obligations.ResetLeavesResetValues : Prop :=
  ∀ s : State, s.resethaltArmed = false →
    ∃ t, s.applyEvent .reset = .next t ∧ t.debugMode = false ∧
      t.dcsr =
        { ebreakvs := false, ebreakvu := false, ebreakm := false, ebreaks := false, ebreaku := false, stepie := false
          stopcount := presetBit s.cfg.stopcountImpl s.cfg.stopcountPreset
          stoptime := presetBit s.cfg.stoptimeImpl s.cfg.stoptimePreset
          cause := 0, v := false
          mprven := presetBit s.cfg.mprvenImpl s.cfg.mprvenPreset
          step := false, prv := 3 } ∧
      t.base.priv = 3 ∧ t.base.virt = false ∧ t.base.pc = instrAddress s.cfg s.cfg.resetPc ∧
      IsInstrAddress s.cfg t.dpc ∧ t.trigAfterPending = false ∧ t.nmip = s.nmiPending ∧ t.cfg = s.cfg ∧ t.mtime = s.mtime

/-- A reset with the request armed halts the hart before any instruction (R202), whatever else is present: `cause` 5 or 3,
`prv` 3, `v` 0, `dpc` the reset `pc`. (A hart that leaves the entry to the priority order: the next statement.) -/
def Obligations.ArmedResetHaltsTheHart : Prop :=
  ∀ s : State, s.resethaltArmed = true → s.cfg.resetHaltByOrder = false →
    ∃ t, s.applyEvent .reset = .next t ∧ t.debugMode = true ∧
      t.dcsr = { Dcsr.reset s.cfg with cause := if s.cfg.resethaltAs3 = true then 3 else 5 } ∧
      t.dpc = instrAddress s.cfg s.cfg.resetPc

/-- A reset with the request armed on a hart that records the highest reason present (60_exceptions.md R160, R171; the
model's second reading, notes/assumptions/26.md): resethaltreq is present after the reset, and the hart's next step enters
Debug Mode at the reset `pc` for the highest reason, which is resethaltreq in the orders that begin with it, and in every
order where neither a group request nor a trigger at the reset `pc` is present. -/
def Obligations.ArmedResetHaltsByPriority : Prop :=
  ∀ (s : State) (inputs : HartInputs), s.resethaltArmed = true → s.cfg.resetHaltByOrder = true →
    ∃ u t r, s.applyEvent .reset = .next u ∧ u.debugMode = false ∧ u.hartStep inputs = .next t ∧
      highest s.cfg (u.reasonsBefore inputs (decoded u.fetch)) = some r ∧
      (s.cfg.causeOrder.val ≤ 4 → r = .resethaltreq) ∧
      (s.groupPresent = false → (s.cfg.hasTriggers = false ∨ inputs.trigBefore = false) → r = .resethaltreq) ∧
      t.debugMode = true ∧ t.dcsr = { Dcsr.reset s.cfg with cause := causeCode s.cfg r } ∧
      t.dpc = instrAddress s.cfg s.cfg.resetPc

/-- What `dcsr` reads after reset with `debugver` 4 and all presets 0, under the layout of 10_state.md R29: 0x40000003
(R32); and 0x40000143, or 0x400000c3, after a reset that halts (R202). The reset values of the other three registers are the
model's (notes/assumptions/4.md) and are not claimed. -/
def Obligations.DcsrReadsAfterReset : Prop :=
  ∀ c : Config, c.layout = DcsrLayout.standard → c.debugver = .v1_0 → presetBit c.stopcountImpl c.stopcountPreset = false →
    presetBit c.stoptimeImpl c.stoptimePreset = false → presetBit c.mprvenImpl c.mprvenPreset = false →
    (State.resetOf c).readCsr .dcsr = 0x40000003 ∧ (State.resetOf c).debugMode = false ∧
    ∀ s : State, s.cfg = c → s.nmiPending = false → s.resethaltArmed = true → c.resetHaltByOrder = false →
      ∃ t, s.applyEvent .reset = .next t ∧ t.debugMode = true ∧
        t.readCsr .dcsr = if c.resethaltAs3 = true then 0x400000c3 else 0x40000143

/-! ### The debugger's moves (60_exceptions.md R185) -/

/-- The requests and the inputs (R185, R153, R155, R195, R174; R192): each event sets or clears its own flag, or advances `mtime`,
and changes nothing else, at any time, in Debug Mode and while the Program Buffer executes too. And the step of the machine is
the effect of the next event, of every kind: a host move, a reset and an NMI among them, so that what other statements say of
`applyEvent` they say of `step`; with no event left it is a step of the hart. That events are listed, and that a command on a
halted hart which stands next while the Program Buffer executes waits, the hart taking a step (20_memory.md R82: "the hart
executes nothing else meanwhile"), is the model's choice, notes/assumptions/14.md. -/
def Obligations.EachRequestSetsItsOwnFlag : Prop :=
  (∀ e : Event, e.waits = true ↔
    e = .resumeReq ∨ (∃ r p, e = .abstractRead r p) ∨ (∃ r w p, e = .abstractWrite r w p) ∨
    e = .abstractReadDpcRunning ∨ (∃ w, e = .abstractWriteDpcRunning w) ∨ ∃ bytes, e = .execProgbuf bytes) ∧
  (∀ s : State, Steps s → s.env = [] → step s = s.hartStep {}) ∧
  (∀ (s : State) (e : Event) (rest : List Event), Steps s → s.env = e :: rest →
    (e.waits = false ∨ s.progbuf = none → step s = { s with env := rest }.applyEvent e) ∧
    (e.waits = true → s.progbuf.isSome = true → step s = s.hartStep {})) ∧
  ∀ (s : State) (rest : List Event), Steps s →
    (s.env = .haltReq :: rest → step s = .next { s with env := rest, haltreq := true }) ∧
    (s.env = .clearHaltReq :: rest → step s = .next { s with env := rest, haltreq := false }) ∧
    (s.env = .armResetHaltReq :: rest → step s = .next { s with env := rest, resethaltArmed := true }) ∧
    (s.env = .disarmResetHaltReq :: rest → step s = .next { s with env := rest, resethaltArmed := false }) ∧
    (∀ b, s.env = .haltGroup b :: rest → step s = .next { s with env := rest, group := b }) ∧
    (∀ b, s.env = .interrupt b :: rest → step s = .next { s with env := rest, irqReady := b }) ∧
    (∀ n, s.env = .mtimeAdvance n :: rest → step s = .next { s with env := rest, mtime := s.mtime + n })

/-- An abstract read while halted returns what a CSR read returns (40_csr_access.md R124): the value of `dcsr` or `dpc`; of a
scratch register that `hartinfo` mentions, the value it holds since the command began, which is not stated (10_state.md R48);
of another one some XLEN-bit value. With `postexec` the Program Buffer then executes (R125). Nothing else of the hart changes. -/
def Obligations.AbstractReadReturnsTheRegister : Prop :=
  ∀ (s : State) (r : DebugCsr) (p : Option (List Byte)), s.csrAccessible r = true →
    ∃ t w, s.applyEvent (.abstractRead r p) = .next t ∧ t.abstractResult = some w ∧
      (r = .dcsr → w = s.readCsr .dcsr) ∧ (r = .dpc → w = s.dpc) ∧
      (r = .dscratch0 → mentioned s.cfg r = true → w = t.dscratch0) ∧
      (r = .dscratch1 → mentioned s.cfg r = true → w = t.dscratch1) ∧
      (r = .dscratch0 ∨ r = .dscratch1 → Fits s.cfg w) ∧
      t.dcsr = s.dcsr ∧ t.dpc = s.dpc ∧ t.stoptimeSetInDebug = s.stoptimeSetInDebug ∧ CommandFrame s t p

/-- An abstract write while halted stores what a CSR instruction's write stores, with no general register involved and
no instruction executed (40_csr_access.md R124); with `postexec` the Program Buffer then executes (R125). Nothing else
changes, but that a scratch register not written holds what the boundary between commands leaves in it, a value that is not
stated (10_state.md R48), and that `stoptime` going from 0 to 1 is noted (60_exceptions.md R191). -/
def Obligations.AbstractWriteStoresTheRegister : Prop :=
  ∀ (s : State) (r : DebugCsr) (w : Word) (p : Option (List Byte)), s.csrAccessible r = true → mentioned s.cfg r = true →
    ∃ t, s.applyEvent (.abstractWrite r w p) = .next t ∧
      t.dcsr = (if r = .dcsr then legalizeDcsr s.cfg s.dcsr (unpackDcsr s.cfg.layout (w.setWidth 32)) else s.dcsr) ∧
      t.dpc = (if r = .dpc then dpcLegalize s.cfg w else s.dpc) ∧
      t.dscratch0 = (if r = .dscratch0 then trunc s.cfg w else s.commandBoundary.dscratch0) ∧
      t.dscratch1 = (if r = .dscratch1 then trunc s.cfg w else s.commandBoundary.dscratch1) ∧
      (r ≠ .dcsr → t.stoptimeSetInDebug = s.stoptimeSetInDebug) ∧ StoptimeNoted s t ∧ t.abstractResult = s.abstractResult ∧
      CommandFrame s t p

/-- A read of `dpc` while running returns an address the hart had as `pc` since it last resumed, and does not change the
stored `dpc` (10_state.md R42). -/
def Obligations.RunningDpcReadReturnsRecentAddress : Prop :=
  ∀ s : State, s.debugMode = false → s.cfg.absDpcReadRunning = true →
    ∃ t a, s.applyEvent .abstractReadDpcRunning = .next t ∧ t.abstractResult = some a ∧
      (a = s.base.pc ∨ a ∈ s.pcHistory) ∧
      t = { s with abstractResult := t.abstractResult, draws := t.draws }

/-- The addresses the hart had as `pc` since it last resumed are kept (70_reset_and_hazards.md R217), so that a read of `dpc`
while running may return any of them: no step forgets one, an entry into Debug Mode and a reset included, but a resume
(10_state.md R42), which leaves Debug Mode for `dpc`. And no step notes another address: only those `pc` had before the step or in it (where a jump took it,
where an interrupt was taken, where Debug Mode was entered). -/
def Obligations.RecentAddressesAreKept : Prop :=
  ∀ s t : State, step s = .next t →
    (s.debugMode = false → ∀ a ∈ s.recentAddresses, a ∈ t.recentAddresses) ∧
    (s.debugMode = true → t.debugMode = true ∨ ResetNext s → ∀ a ∈ s.pcHistory, a ∈ t.pcHistory) ∧
    (s.debugMode = false → ∀ a ∈ t.pcHistory, a ∈ s.recentAddresses ∨ a = s.takeJump.base.pc ∨
      (s.irqReady = true ∧ s.interruptsMasked = false ∧ a = s.takeJump.takeInterrupt.base.pc) ∨
      (t.debugMode = true ∧ a = t.dpc)) ∧
    (s.debugMode = true → ∀ a ∈ t.pcHistory, a ∈ s.pcHistory ∨ (ResetNext s ∧ t.debugMode = true ∧ a = t.dpc))

/-- A write of `dpc` while running makes the program jump, after a finite number of further instructions, to the legalized
address (10_state.md R43): the count (the model's, notes/assumptions/27.md) goes down by one with every instruction, and
at zero every step is a step from that address, where a halt request halts the hart. -/
def Obligations.RunningDpcWriteMakesTheProgramJump : Prop :=
  (∀ (s : State) (w : Word), s.debugMode = false → s.cfg.absDpcWriteRunning = true →
    ∃ t n, s.applyEvent (.abstractWriteDpcRunning w) = .next t ∧ t.pendingJump = some (n, w) ∧ t.base = s.base) ∧
  (∀ (s t : State) (inputs : HartInputs) (n : Nat) (w : Word), s.debugMode = false → s.pendingJump = some (n + 1, w) →
    s.hartStep inputs = .next t → t.debugMode = false → t.pendingJump = some (n, w)) ∧
  (∀ (s : State) (inputs : HartInputs) (w : Word), s.debugMode = false → s.pendingJump = some (0, w) →
    s.hartStep inputs =
      { s with
        base := { s.base with pc := dpcLegalize s.cfg w }
        pendingJump := none
        pcHistory := s.base.pc :: s.pcHistory }.hartStep inputs) ∧
  (∀ (s t : State) (inputs : HartInputs) (w : Word), s.debugMode = false → s.pendingJump = some (0, w) →
    highest s.cfg (s.takeJump.reasonsBefore inputs (decoded s.takeJump.fetch)) = some .haltreq →
    s.hartStep inputs = .next t → t.dpc = dpcLegalize s.cfg w ∧ t.pendingJump = none)

/-- `nmip` is a live view of the pending-NMI input (10_state.md R26): raising or withdrawing the signal changes that bit
of `dcsr` and no other, in and out of Debug Mode. -/
def Obligations.NmipFollowsTheInput : Prop :=
  ∀ (s : State) (b : Bool), s.cfg.layout = DcsrLayout.standard →
    ∃ t, s.applyEvent (.nmi b) = .next t ∧ t.dcsrBits.getLsbD 3 = b ∧
      (t.dcsrBits &&& ~~~8#32) = (s.dcsrBits &&& ~~~8#32) ∧ t = { s with nmiPending := b, nmiSeen := t.nmiSeen }

/-- What is refused, each by its name. A hart that does not conform, and a run after an NMI on a hart where debugging is then
not reliable (92_eei_decisions.md D32, 93_implementation_defined.md U8): every step. An abstract access to `dcsr`, `dpc` or a
scratch register while running (40_csr_access.md R126, 20_memory.md R84). A host move whose precondition does not hold
(60_exceptions.md R185): `ResumeReq` and `ExecProgbuf` outside Debug Mode, an access to `dpc` while running in Debug Mode or on a
hart without it (10_state.md R42, R43). An abstract access to a scratch register the hart does not have. That an unavailable
move and an absent register refuse the run is the model's reading, notes/assumptions/16.md; that the refusal after an NMI
outlasts its withdrawal and a reset, notes/assumptions/24.md; that a hart with another `debugver` is refused at every step,
notes/assumptions/25.md. -/
def Obligations.RunsOutsideTheSpecAreRefused : Prop :=
  (∀ s : State,
    (s.cfg.debugver = .none → step s = .refused .noDebugSupport) ∧
    (s.cfg.debugver = .custom → step s = .refused .customDebug) ∧
    (s.cfg.debugver = .v1_0 → s.cfg.nmiDebugReliable = false → s.nmiPending = true ∨ s.nmiSeen = true →
      step s = .refused .nmiUnreliable)) ∧
  (∀ (s : State) (r : DebugCsr) (w : Word) (p : Option (List Byte)),
    (s.debugMode = false →
      s.applyEvent (.abstractRead r p) = .refused .abstractWhileRunning ∧
      s.applyEvent (.abstractWrite r w p) = .refused .abstractWhileRunning) ∧
    (s.debugMode = true → present s.cfg r = false →
      s.applyEvent (.abstractRead r p) = .refused .abstractAbsentRegister ∧
      s.applyEvent (.abstractWrite r w p) = .refused .abstractAbsentRegister)) ∧
  (∀ (s : State) (bytes : List Byte), s.debugMode = false →
    s.applyEvent .resumeReq = .refused .moveNotAvailable ∧
    s.applyEvent (.execProgbuf bytes) = .refused .moveNotAvailable) ∧
  ∀ (s : State) (w : Word),
    (s.debugMode = true ∨ s.cfg.absDpcReadRunning = false →
      s.applyEvent .abstractReadDpcRunning = .refused .moveNotAvailable) ∧
    (s.debugMode = true ∨ s.cfg.absDpcWriteRunning = false →
      s.applyEvent (.abstractWriteDpcRunning w) = .refused .moveNotAvailable)

/-! ### Decoding (30_encoding.md) -/

/-- Decoding the bytes of an instruction gives the instruction back, with what follows it, for every instruction with every
operand. -/
def Obligations.DecodeOfEncode : Prop :=
  ∀ (i : Instr) (rest : List Byte), decode (encode i ++ rest) = .ok (i, rest)

/-- Every word that decodes is the word of the instruction it decodes to, and matches its row of the opcode map (R99). -/
def Obligations.DecodedWordsMatchTheOpcodeMap : Prop :=
  (∀ (w : BitVec 32) (i : Instr), decodeWord w = .ok i → encodeWord i = w ∧ (w &&& (matchMask i).2) = (matchMask i).1) ∧
  (∀ (p : BitVec 16) (i : Instr), decodeParcel p = .ok i → i = .cEbreak ∧ p = 0x9002)

/-- Words written out from the encodings of R99, one of each family, decode to what they stand for. -/
def Obligations.KnownWordsDecode : Prop :=
  decodeTableWord 32 0b01111011001001010001010101110011 = some (.csrrw 10 0x7b2 10) ∧
  decodeTableWord 32 0b01111011000000100110000001110011 = some (.csrrsi 0 0x7b0 4) ∧
  decodeTableWord 32 0b00000000000100000000000001110011 = some .ebreak ∧
  decodeTableWord 16 0b1001000000000010 = some .cEbreak ∧
  decodeTableWord 32 0b01111011001000000000000001110011 = some .dret

/-! ### The step of the machine -/

/-- Outside Debug Mode, with nothing before it, the instruction that the bytes at `pc` decode to is executed by `exec`;
the step notes its address before it and ends as R171 says, whatever its inputs: an entry by the instruction itself is the
end; otherwise, without `step`, a trigger that fires after it is carried to the next (10_state.md R54, R164), a request that
becomes present stays. Where an interrupt is ready and not masked it is taken instead (R174): the hart goes on at some address,
in some mode it has. That taking an interrupt or NMI clears `irqReady` and leaves everything else of the debug layer as it was,
`nmiPending` and with it `nmip` among it, is the model's choice, notes/assumptions/18.md (how an NMI is taken and cleared the
spec does not say); that the count of a pending jump goes down in such a step too, notes/assumptions/27.md. -/
def Obligations.RunningStepExecutesDecodedInstruction : Prop :=
  (∀ (s : State) (i : Instr), Steps s → s.env = [] → s.debugMode = false → Quiet s {} → i.wellFormed = true →
    decoded s.fetch = some i →
    step s = mapNext (fun t => t.afterInstr {}) (exec i s.notePc)) ∧
  (∀ (s : State) (inputs : HartInputs) (rest : List Event), Steps s → s.env = .hart inputs :: rest →
    step s = { s with env := rest }.hartStep inputs) ∧
  (∀ (s : State) (inputs : HartInputs), s.debugMode = false → Quiet s inputs →
    (∀ i, decoded s.fetch = some i → s.executeAtPc = exec i s.notePc) ∧
    ∀ u, s.executeAtPc = .next u →
      ∃ t, s.hartStep inputs = .next t ∧ (u.debugMode = true → WithLateRequests u t inputs) ∧
        (u.debugMode = false → s.dcsr.step = false → CarriedOn s u t inputs)) ∧
  (∀ (s : State) (inputs : HartInputs), s.debugMode = false → s.dcsr.step = false → InterruptNext s inputs →
    ∃ t, s.hartStep inputs = .next t ∧ CarriedOn s s.takeInterrupt t inputs ∧
      IsInstrAddress s.cfg t.base.pc ∧ supported s.cfg t.mode = true ∧
      s.takeInterrupt = { s with
        irqReady := false, pcHistory := s.base.pc :: s.pcHistory, draws := t.draws, base := t.base })

/-- In Debug Mode, with nothing before it, the next instruction of the Program Buffer is executed by `exec`, the rest of
the buffer left for the steps after it. Beyond what `exec` does nothing changes but `dpc` (and the number of the next free
value), and that only where the Program Buffer has ended on a hart with `P.PROGBUF_CLOBBERS_DPC` (10_state.md R40): then it
is some instruction address. The move `ExecProgbuf` (60_exceptions.md R185) starts the Program Buffer. -/
def Obligations.DebugStepExecutesDecodedInstruction : Prop :=
  (∀ (s : State) (bytes : List Byte), s.debugMode = true →
    ∃ t, s.applyEvent (.execProgbuf bytes) = .next t ∧ t.progbuf = some bytes ∧ CommandFrame s t (some bytes) ∧
      t.dcsr = s.dcsr ∧ t.dpc = s.dpc ∧ t.abstractResult = s.abstractResult ∧
      t.stoptimeSetInDebug = s.stoptimeSetInDebug) ∧
  ∀ (s : State) (i : Instr) (rest : List Byte), Steps s → s.env = [] → s.debugMode = true → i.wellFormed = true →
    s.progbuf = some (encode i ++ rest) →
    step s = mapNext State.closeProgbuf (exec i (s.setProgbuf (some rest))) ∧
    ∀ u t : State, exec i (s.setProgbuf (some rest)) = .next u → step s = .next t →
      t = { u with dpc := t.dpc, draws := t.draws } ∧
      (u.progbuf.isSome = true ∨ s.cfg.progbufClobbers = false → t = u) ∧
      (u.progbuf = none → s.cfg.progbufClobbers = true → IsInstrAddress s.cfg t.dpc)

/-- A step keeps a sound state: memory canonical, `x0` zero, `dpc` aligned, the modes legal, hardwired bits as wired,
`cause` in 1..6 in Debug Mode (10_state.md R15 to R28, R39, R54 to R56, 20_memory.md R77). -/
def Obligations.StepKeepsSoundness : Prop := ∀ s t : State, s.Sound → step s = .next t → t.Sound

/-- The state after reset is sound (with the reset values the model names, notes/assumptions/4.md to 6.md). -/
def Obligations.ResetIsSound : Prop := State.reset.Sound

/-- The parameters of a hart never change (00_scope.md R4). -/
def Obligations.ParametersAreFixed : Prop := ∀ s t : State, step s = .next t → t.cfg = s.cfg
end

