-- ==== Sys2Proof/Laws/Memory.lean ====
section
/-! SUPPORT. Memory: reading after writing, and every operation keeps the canonical form. -/

namespace Sys2Proof.Machine

/-- A write at `a` gives back what was written at `a`, and every other address reads as before. -/
theorem Memory.read_write (m : Memory) (a b : Nat) (v : Byte) :
    (m.write a v).read b = if b = a then some v else m.read b := by
  induction m with
  | nil =>
    by_cases h : b = a
    · simp [Memory.write, Memory.read, h]
    · simp [Memory.write, Memory.read, h, Ne.symm h]
  | cons c rest ih =>
    unfold Memory.write
    split
    · by_cases h : b = a
      · simp [Memory.read, h]
      · simp [Memory.read, h, Ne.symm h]
    · split
      · rename_i hle heq
        by_cases h : b = a
        · simp [Memory.read, h]
        · simp [Memory.read, h, Ne.symm h, ← heq]
      · rename_i hle hne
        by_cases h : c.1 = b
        · have : ¬ b = a := fun e => hne (e ▸ h.symm)
          simp [Memory.read, h, this]
        · simp [Memory.read, h, ih]

/-- Writing adds no address but the one written. -/
theorem Memory.mem_write {m : Memory} {a : Nat} {v : Byte} {c : Host.Cell} (h : c ∈ m.write a v) :
    c = (a, v) ∨ c ∈ m := by
  induction m with
  | nil => simpa [Memory.write] using h
  | cons d rest ih =>
    unfold Memory.write at h
    split at h
    · simpa using h
    · split at h
      · rcases List.mem_cons.mp h with h | h
        · exact .inl h
        · exact .inr (List.mem_cons_of_mem _ h)
      · rcases List.mem_cons.mp h with h | h
        · exact .inr (h ▸ List.mem_cons_self)
        · exact (ih h).imp id (List.mem_cons_of_mem _)

/-- A write keeps the canonical form. -/
theorem Memory.write_wf {m : Memory} (h : m.wf) (a : Nat) (v : Byte) : (m.write a v).wf := by
  induction m with
  | nil => simp [Memory.write]
  | cons c rest ih =>
    have ⟨hc, hr⟩ := List.pairwise_cons.mp h
    unfold Memory.write
    split
    · rename_i hlt
      refine List.pairwise_cons.mpr ⟨fun d hd => ?_, h⟩
      rcases List.mem_cons.mp hd with rfl | hd
      · exact hlt
      · exact Nat.lt_trans hlt (hc d hd)
    · split
      · rename_i heq
        exact List.pairwise_cons.mpr ⟨fun d hd => heq ▸ hc d hd, hr⟩
      · rename_i hge hne
        refine List.pairwise_cons.mpr ⟨fun d hd => ?_, ih hr⟩
        rcases Memory.mem_write hd with rfl | hd
        · show c.1 < a
          omega
        · exact hc d hd

/-- Writing bytes in order keeps the canonical form. -/
theorem Memory.writeAll_wf {m : Memory} (h : m.wf) (l : List (Nat × Byte)) : (m.writeAll l).wf := by
  induction l generalizing m with
  | nil => exact h
  | cons c rest ih => exact ih (Memory.write_wf h c.1 c.2)

/-- Writing bytes in order adds no address but those written. -/
theorem Memory.mem_writeAll {m : Memory} {l : List (Nat × Byte)} {c : Host.Cell} (h : c ∈ m.writeAll l) :
    c ∈ l ∨ c ∈ m := by
  induction l generalizing m with
  | nil => exact .inr h
  | cons d rest ih =>
    rcases ih h with h | h
    · exact .inl (List.mem_cons_of_mem _ h)
    · rcases Memory.mem_write h with rfl | h
      · exact .inl List.mem_cons_self
      · exact .inr h

/-- Writing a run of bytes keeps the canonical form. -/
theorem Memory.writeRun_wf {m : Memory} (h : m.wf) (size a : Nat) (l : List Byte) : (m.writeRun size a l).wf := by
  induction l generalizing m a with
  | nil => exact h
  | cons b rest ih => exact ih (Memory.write_wf h _ _) _

end Sys2Proof.Machine
end

