-- ==== Sys2Proof/Laws/State.lean ====
section
/-! SUPPORT. What each update of the state leaves and what it sets, a field at a time. -/

namespace Sys2Proof.Machine

section tick
variable (s : State) (mayRetire entering : Bool)

@[simp] theorem State.tick_cfg : (s.tick mayRetire entering).cfg = s.cfg := rfl
@[simp] theorem State.tick_dcsr : (s.tick mayRetire entering).dcsr = s.dcsr := rfl
@[simp] theorem State.tick_dpc : (s.tick mayRetire entering).dpc = s.dpc := rfl
@[simp] theorem State.tick_dscratch0 : (s.tick mayRetire entering).dscratch0 = s.dscratch0 := rfl
@[simp] theorem State.tick_dscratch1 : (s.tick mayRetire entering).dscratch1 = s.dscratch1 := rfl
@[simp] theorem State.tick_debugMode : (s.tick mayRetire entering).debugMode = s.debugMode := rfl
@[simp] theorem State.tick_haltreq : (s.tick mayRetire entering).haltreq = s.haltreq := rfl
@[simp] theorem State.tick_group : (s.tick mayRetire entering).group = s.group := rfl
@[simp] theorem State.tick_resethaltArmed : (s.tick mayRetire entering).resethaltArmed = s.resethaltArmed := rfl
@[simp] theorem State.tick_resethaltPresent : (s.tick mayRetire entering).resethaltPresent = s.resethaltPresent := rfl
@[simp] theorem State.tick_trigAfterPending : (s.tick mayRetire entering).trigAfterPending = s.trigAfterPending := rfl
@[simp] theorem State.tick_timeAtEntry : (s.tick mayRetire entering).timeAtEntry = s.timeAtEntry := rfl
@[simp] theorem State.tick_stoptimeSetInDebug : (s.tick mayRetire entering).stoptimeSetInDebug = s.stoptimeSetInDebug := rfl
@[simp] theorem State.tick_scratchStale : (s.tick mayRetire entering).scratchStale = s.scratchStale := rfl
@[simp] theorem State.tick_nmiPending : (s.tick mayRetire entering).nmiPending = s.nmiPending := rfl
@[simp] theorem State.tick_nmiSeen : (s.tick mayRetire entering).nmiSeen = s.nmiSeen := rfl
@[simp] theorem State.tick_mtime : (s.tick mayRetire entering).mtime = s.mtime := rfl
@[simp] theorem State.tick_irqReady : (s.tick mayRetire entering).irqReady = s.irqReady := rfl
@[simp] theorem State.tick_progbuf : (s.tick mayRetire entering).progbuf = s.progbuf := rfl
@[simp] theorem State.tick_pendingJump : (s.tick mayRetire entering).pendingJump = s.pendingJump := rfl
@[simp] theorem State.tick_pcHistory : (s.tick mayRetire entering).pcHistory = s.pcHistory := rfl
@[simp] theorem State.tick_abstractResult : (s.tick mayRetire entering).abstractResult = s.abstractResult := rfl
@[simp] theorem State.tick_env : (s.tick mayRetire entering).env = s.env := rfl
@[simp] theorem State.tick_draws : (s.tick mayRetire entering).draws = s.draws + 1 := rfl
@[simp] theorem State.tick_base_x : (s.tick mayRetire entering).base.x = s.base.x := rfl
@[simp] theorem State.tick_base_pc : (s.tick mayRetire entering).base.pc = s.base.pc := rfl
@[simp] theorem State.tick_base_priv : (s.tick mayRetire entering).base.priv = s.base.priv := rfl
@[simp] theorem State.tick_base_virt : (s.tick mayRetire entering).base.virt = s.base.virt := rfl
@[simp] theorem State.tick_base_mprv : (s.tick mayRetire entering).base.mprv = s.base.mprv := rfl
@[simp] theorem State.tick_base_mpp : (s.tick mayRetire entering).base.mpp = s.base.mpp := rfl
@[simp] theorem State.tick_base_trapM : (s.tick mayRetire entering).base.trapM = s.base.trapM := rfl
@[simp] theorem State.tick_base_trapS : (s.tick mayRetire entering).base.trapS = s.base.trapS := rfl
@[simp] theorem State.tick_base_trapVS : (s.tick mayRetire entering).base.trapVS = s.base.trapVS := rfl
@[simp] theorem State.tick_base_mem : (s.tick mayRetire entering).base.mem = s.base.mem := rfl
@[simp] theorem State.tick_base_other : (s.tick mayRetire entering).base.other = s.base.other := rfl

end tick

section setReg
variable (s : State) (r : Reg) (w : Word)

@[simp] theorem State.setReg_cfg : (s.setReg r w).cfg = s.cfg := rfl
@[simp] theorem State.setReg_dcsr : (s.setReg r w).dcsr = s.dcsr := rfl
@[simp] theorem State.setReg_dpc : (s.setReg r w).dpc = s.dpc := rfl
@[simp] theorem State.setReg_dscratch0 : (s.setReg r w).dscratch0 = s.dscratch0 := rfl
@[simp] theorem State.setReg_dscratch1 : (s.setReg r w).dscratch1 = s.dscratch1 := rfl
@[simp] theorem State.setReg_debugMode : (s.setReg r w).debugMode = s.debugMode := rfl
@[simp] theorem State.setReg_haltreq : (s.setReg r w).haltreq = s.haltreq := rfl
@[simp] theorem State.setReg_group : (s.setReg r w).group = s.group := rfl
@[simp] theorem State.setReg_resethaltArmed : (s.setReg r w).resethaltArmed = s.resethaltArmed := rfl
@[simp] theorem State.setReg_resethaltPresent : (s.setReg r w).resethaltPresent = s.resethaltPresent := rfl
@[simp] theorem State.setReg_trigAfterPending : (s.setReg r w).trigAfterPending = s.trigAfterPending := rfl
@[simp] theorem State.setReg_timeAtEntry : (s.setReg r w).timeAtEntry = s.timeAtEntry := rfl
@[simp] theorem State.setReg_stoptimeSetInDebug : (s.setReg r w).stoptimeSetInDebug = s.stoptimeSetInDebug := rfl
@[simp] theorem State.setReg_scratchStale : (s.setReg r w).scratchStale = s.scratchStale := rfl
@[simp] theorem State.setReg_nmiPending : (s.setReg r w).nmiPending = s.nmiPending := rfl
@[simp] theorem State.setReg_nmiSeen : (s.setReg r w).nmiSeen = s.nmiSeen := rfl
@[simp] theorem State.setReg_mtime : (s.setReg r w).mtime = s.mtime := rfl
@[simp] theorem State.setReg_irqReady : (s.setReg r w).irqReady = s.irqReady := rfl
@[simp] theorem State.setReg_progbuf : (s.setReg r w).progbuf = s.progbuf := rfl
@[simp] theorem State.setReg_pendingJump : (s.setReg r w).pendingJump = s.pendingJump := rfl
@[simp] theorem State.setReg_pcHistory : (s.setReg r w).pcHistory = s.pcHistory := rfl
@[simp] theorem State.setReg_abstractResult : (s.setReg r w).abstractResult = s.abstractResult := rfl
@[simp] theorem State.setReg_env : (s.setReg r w).env = s.env := rfl
@[simp] theorem State.setReg_draws : (s.setReg r w).draws = s.draws := rfl
@[simp] theorem State.setReg_base_pc : (s.setReg r w).base.pc = s.base.pc := by unfold State.setReg Base.setReg; split <;> rfl
@[simp] theorem State.setReg_base_priv : (s.setReg r w).base.priv = s.base.priv := by unfold State.setReg Base.setReg; split <;> rfl
@[simp] theorem State.setReg_base_virt : (s.setReg r w).base.virt = s.base.virt := by unfold State.setReg Base.setReg; split <;> rfl
@[simp] theorem State.setReg_base_mprv : (s.setReg r w).base.mprv = s.base.mprv := by unfold State.setReg Base.setReg; split <;> rfl
@[simp] theorem State.setReg_base_mpp : (s.setReg r w).base.mpp = s.base.mpp := by unfold State.setReg Base.setReg; split <;> rfl
@[simp] theorem State.setReg_base_trapM : (s.setReg r w).base.trapM = s.base.trapM := by unfold State.setReg Base.setReg; split <;> rfl
@[simp] theorem State.setReg_base_trapS : (s.setReg r w).base.trapS = s.base.trapS := by unfold State.setReg Base.setReg; split <;> rfl
@[simp] theorem State.setReg_base_trapVS : (s.setReg r w).base.trapVS = s.base.trapVS := by unfold State.setReg Base.setReg; split <;> rfl
@[simp] theorem State.setReg_base_cycle : (s.setReg r w).base.cycle = s.base.cycle := by unfold State.setReg Base.setReg; split <;> rfl
@[simp] theorem State.setReg_base_instret : (s.setReg r w).base.instret = s.base.instret := by unfold State.setReg Base.setReg; split <;> rfl
@[simp] theorem State.setReg_base_localCounters : (s.setReg r w).base.localCounters = s.base.localCounters := by unfold State.setReg Base.setReg; split <;> rfl
@[simp] theorem State.setReg_base_mem : (s.setReg r w).base.mem = s.base.mem := by unfold State.setReg Base.setReg; split <;> rfl
@[simp] theorem State.setReg_base_other : (s.setReg r w).base.other = s.base.other := by unfold State.setReg Base.setReg; split <;> rfl

end setReg

section applyEffect
variable (s : State) (n : Option Nat) (e : BaseEffect)

@[simp] theorem State.applyEffect_cfg : (s.applyEffect n e).cfg = s.cfg := rfl
@[simp] theorem State.applyEffect_dcsr : (s.applyEffect n e).dcsr = s.dcsr := rfl
@[simp] theorem State.applyEffect_dpc : (s.applyEffect n e).dpc = s.dpc := rfl
@[simp] theorem State.applyEffect_dscratch0 : (s.applyEffect n e).dscratch0 = s.dscratch0 := rfl
@[simp] theorem State.applyEffect_dscratch1 : (s.applyEffect n e).dscratch1 = s.dscratch1 := rfl
@[simp] theorem State.applyEffect_debugMode : (s.applyEffect n e).debugMode = s.debugMode := rfl
@[simp] theorem State.applyEffect_haltreq : (s.applyEffect n e).haltreq = s.haltreq := rfl
@[simp] theorem State.applyEffect_group : (s.applyEffect n e).group = s.group := rfl
@[simp] theorem State.applyEffect_resethaltArmed : (s.applyEffect n e).resethaltArmed = s.resethaltArmed := rfl
@[simp] theorem State.applyEffect_resethaltPresent : (s.applyEffect n e).resethaltPresent = s.resethaltPresent := rfl
@[simp] theorem State.applyEffect_trigAfterPending : (s.applyEffect n e).trigAfterPending = s.trigAfterPending := rfl
@[simp] theorem State.applyEffect_timeAtEntry : (s.applyEffect n e).timeAtEntry = s.timeAtEntry := rfl
@[simp] theorem State.applyEffect_stoptimeSetInDebug : (s.applyEffect n e).stoptimeSetInDebug = s.stoptimeSetInDebug := rfl
@[simp] theorem State.applyEffect_scratchStale : (s.applyEffect n e).scratchStale = s.scratchStale := rfl
@[simp] theorem State.applyEffect_nmiPending : (s.applyEffect n e).nmiPending = s.nmiPending := rfl
@[simp] theorem State.applyEffect_nmiSeen : (s.applyEffect n e).nmiSeen = s.nmiSeen := rfl
@[simp] theorem State.applyEffect_mtime : (s.applyEffect n e).mtime = s.mtime := rfl
@[simp] theorem State.applyEffect_irqReady : (s.applyEffect n e).irqReady = s.irqReady := rfl
@[simp] theorem State.applyEffect_progbuf : (s.applyEffect n e).progbuf = s.progbuf := rfl
@[simp] theorem State.applyEffect_pendingJump : (s.applyEffect n e).pendingJump = s.pendingJump := rfl
@[simp] theorem State.applyEffect_pcHistory : (s.applyEffect n e).pcHistory = s.pcHistory := rfl
@[simp] theorem State.applyEffect_abstractResult : (s.applyEffect n e).abstractResult = s.abstractResult := rfl
@[simp] theorem State.applyEffect_env : (s.applyEffect n e).env = s.env := rfl
@[simp] theorem State.applyEffect_draws : (s.applyEffect n e).draws = s.draws := rfl

end applyEffect

section takeTrap
variable (s : State) (e : Exc)

@[simp] theorem State.takeTrap_cfg : (s.takeTrap e).cfg = s.cfg := rfl
@[simp] theorem State.takeTrap_dcsr : (s.takeTrap e).dcsr = s.dcsr := rfl
@[simp] theorem State.takeTrap_dpc : (s.takeTrap e).dpc = s.dpc := rfl
@[simp] theorem State.takeTrap_dscratch0 : (s.takeTrap e).dscratch0 = s.dscratch0 := rfl
@[simp] theorem State.takeTrap_dscratch1 : (s.takeTrap e).dscratch1 = s.dscratch1 := rfl
@[simp] theorem State.takeTrap_debugMode : (s.takeTrap e).debugMode = s.debugMode := rfl
@[simp] theorem State.takeTrap_haltreq : (s.takeTrap e).haltreq = s.haltreq := rfl
@[simp] theorem State.takeTrap_group : (s.takeTrap e).group = s.group := rfl
@[simp] theorem State.takeTrap_resethaltArmed : (s.takeTrap e).resethaltArmed = s.resethaltArmed := rfl
@[simp] theorem State.takeTrap_resethaltPresent : (s.takeTrap e).resethaltPresent = s.resethaltPresent := rfl
@[simp] theorem State.takeTrap_trigAfterPending : (s.takeTrap e).trigAfterPending = s.trigAfterPending := rfl
@[simp] theorem State.takeTrap_timeAtEntry : (s.takeTrap e).timeAtEntry = s.timeAtEntry := rfl
@[simp] theorem State.takeTrap_stoptimeSetInDebug : (s.takeTrap e).stoptimeSetInDebug = s.stoptimeSetInDebug := rfl
@[simp] theorem State.takeTrap_scratchStale : (s.takeTrap e).scratchStale = s.scratchStale := rfl
@[simp] theorem State.takeTrap_nmiPending : (s.takeTrap e).nmiPending = s.nmiPending := rfl
@[simp] theorem State.takeTrap_nmiSeen : (s.takeTrap e).nmiSeen = s.nmiSeen := rfl
@[simp] theorem State.takeTrap_mtime : (s.takeTrap e).mtime = s.mtime := rfl
@[simp] theorem State.takeTrap_irqReady : (s.takeTrap e).irqReady = s.irqReady := rfl
@[simp] theorem State.takeTrap_progbuf : (s.takeTrap e).progbuf = s.progbuf := rfl
@[simp] theorem State.takeTrap_pendingJump : (s.takeTrap e).pendingJump = s.pendingJump := rfl
@[simp] theorem State.takeTrap_pcHistory : (s.takeTrap e).pcHistory = s.pcHistory := rfl
@[simp] theorem State.takeTrap_abstractResult : (s.takeTrap e).abstractResult = s.abstractResult := rfl
@[simp] theorem State.takeTrap_env : (s.takeTrap e).env = s.env := rfl
@[simp] theorem State.takeTrap_draws : (s.takeTrap e).draws = s.draws + 1 := rfl

end takeTrap

section enterDebug
variable (s : State) (r : Reason) (a : Word)

@[simp] theorem State.enterDebug_cfg : (s.enterDebug r a).cfg = s.cfg := rfl
@[simp] theorem State.enterDebug_dcsr : (s.enterDebug r a).dcsr = { s.dcsr with prv := s.base.priv, v := s.cfg.hasH && s.base.virt, cause := causeCode s.cfg r } := rfl
@[simp] theorem State.enterDebug_dpc : (s.enterDebug r a).dpc = a := rfl
@[simp] theorem State.enterDebug_dscratch0 : (s.enterDebug r a).dscratch0 = s.dscratch0 := rfl
@[simp] theorem State.enterDebug_dscratch1 : (s.enterDebug r a).dscratch1 = s.dscratch1 := rfl
@[simp] theorem State.enterDebug_debugMode : (s.enterDebug r a).debugMode = true := rfl
@[simp] theorem State.enterDebug_haltreq : (s.enterDebug r a).haltreq = s.haltreq := rfl
@[simp] theorem State.enterDebug_group : (s.enterDebug r a).group = s.group := rfl
@[simp] theorem State.enterDebug_resethaltArmed : (s.enterDebug r a).resethaltArmed = s.resethaltArmed := rfl
@[simp] theorem State.enterDebug_resethaltPresent : (s.enterDebug r a).resethaltPresent = false := rfl
@[simp] theorem State.enterDebug_trigAfterPending : (s.enterDebug r a).trigAfterPending = false := rfl
@[simp] theorem State.enterDebug_timeAtEntry : (s.enterDebug r a).timeAtEntry = some s.mtime := rfl
@[simp] theorem State.enterDebug_stoptimeSetInDebug : (s.enterDebug r a).stoptimeSetInDebug = false := rfl
@[simp] theorem State.enterDebug_scratchStale : (s.enterDebug r a).scratchStale = s.scratchStale := rfl
@[simp] theorem State.enterDebug_nmiPending : (s.enterDebug r a).nmiPending = s.nmiPending := rfl
@[simp] theorem State.enterDebug_nmiSeen : (s.enterDebug r a).nmiSeen = s.nmiSeen := rfl
@[simp] theorem State.enterDebug_mtime : (s.enterDebug r a).mtime = s.mtime := rfl
@[simp] theorem State.enterDebug_irqReady : (s.enterDebug r a).irqReady = s.irqReady := rfl
@[simp] theorem State.enterDebug_progbuf : (s.enterDebug r a).progbuf = s.progbuf := rfl
@[simp] theorem State.enterDebug_pendingJump : (s.enterDebug r a).pendingJump = s.pendingJump := rfl
@[simp] theorem State.enterDebug_pcHistory : (s.enterDebug r a).pcHistory = s.base.pc :: s.pcHistory := rfl
@[simp] theorem State.enterDebug_abstractResult : (s.enterDebug r a).abstractResult = s.abstractResult := rfl
@[simp] theorem State.enterDebug_env : (s.enterDebug r a).env = s.env := rfl
@[simp] theorem State.enterDebug_draws : (s.enterDebug r a).draws = s.draws + 1 := rfl
@[simp] theorem State.enterDebug_base_x : (s.enterDebug r a).base.x = s.base.x := rfl
@[simp] theorem State.enterDebug_base_priv : (s.enterDebug r a).base.priv = s.base.priv := rfl
@[simp] theorem State.enterDebug_base_virt : (s.enterDebug r a).base.virt = s.base.virt := rfl
@[simp] theorem State.enterDebug_base_mprv : (s.enterDebug r a).base.mprv = s.base.mprv := rfl
@[simp] theorem State.enterDebug_base_mpp : (s.enterDebug r a).base.mpp = s.base.mpp := rfl
@[simp] theorem State.enterDebug_base_trapM : (s.enterDebug r a).base.trapM = s.base.trapM := rfl
@[simp] theorem State.enterDebug_base_trapS : (s.enterDebug r a).base.trapS = s.base.trapS := rfl
@[simp] theorem State.enterDebug_base_trapVS : (s.enterDebug r a).base.trapVS = s.base.trapVS := rfl
@[simp] theorem State.enterDebug_base_cycle : (s.enterDebug r a).base.cycle = s.base.cycle := rfl
@[simp] theorem State.enterDebug_base_instret : (s.enterDebug r a).base.instret = s.base.instret := rfl
@[simp] theorem State.enterDebug_base_localCounters : (s.enterDebug r a).base.localCounters = s.base.localCounters := rfl
@[simp] theorem State.enterDebug_base_mem : (s.enterDebug r a).base.mem = s.base.mem := rfl
@[simp] theorem State.enterDebug_base_other : (s.enterDebug r a).base.other = s.base.other := rfl

end enterDebug

section commandBoundary
variable (s : State) 

@[simp] theorem State.commandBoundary_cfg : (s.commandBoundary).cfg = s.cfg := rfl
@[simp] theorem State.commandBoundary_dcsr : (s.commandBoundary).dcsr = s.dcsr := rfl
@[simp] theorem State.commandBoundary_dpc : (s.commandBoundary).dpc = s.dpc := rfl
@[simp] theorem State.commandBoundary_debugMode : (s.commandBoundary).debugMode = s.debugMode := rfl
@[simp] theorem State.commandBoundary_haltreq : (s.commandBoundary).haltreq = s.haltreq := rfl
@[simp] theorem State.commandBoundary_group : (s.commandBoundary).group = s.group := rfl
@[simp] theorem State.commandBoundary_resethaltArmed : (s.commandBoundary).resethaltArmed = s.resethaltArmed := rfl
@[simp] theorem State.commandBoundary_resethaltPresent : (s.commandBoundary).resethaltPresent = s.resethaltPresent := rfl
@[simp] theorem State.commandBoundary_trigAfterPending : (s.commandBoundary).trigAfterPending = s.trigAfterPending := rfl
@[simp] theorem State.commandBoundary_timeAtEntry : (s.commandBoundary).timeAtEntry = s.timeAtEntry := rfl
@[simp] theorem State.commandBoundary_stoptimeSetInDebug : (s.commandBoundary).stoptimeSetInDebug = s.stoptimeSetInDebug := rfl
@[simp] theorem State.commandBoundary_scratchStale : (s.commandBoundary).scratchStale = false := rfl
@[simp] theorem State.commandBoundary_nmiPending : (s.commandBoundary).nmiPending = s.nmiPending := rfl
@[simp] theorem State.commandBoundary_nmiSeen : (s.commandBoundary).nmiSeen = s.nmiSeen := rfl
@[simp] theorem State.commandBoundary_mtime : (s.commandBoundary).mtime = s.mtime := rfl
@[simp] theorem State.commandBoundary_irqReady : (s.commandBoundary).irqReady = s.irqReady := rfl
@[simp] theorem State.commandBoundary_progbuf : (s.commandBoundary).progbuf = s.progbuf := rfl
@[simp] theorem State.commandBoundary_pendingJump : (s.commandBoundary).pendingJump = s.pendingJump := rfl
@[simp] theorem State.commandBoundary_pcHistory : (s.commandBoundary).pcHistory = s.pcHistory := rfl
@[simp] theorem State.commandBoundary_abstractResult : (s.commandBoundary).abstractResult = s.abstractResult := rfl
@[simp] theorem State.commandBoundary_env : (s.commandBoundary).env = s.env := rfl
@[simp] theorem State.commandBoundary_draws : (s.commandBoundary).draws = s.draws + 1 := rfl
@[simp] theorem State.commandBoundary_base : (s.commandBoundary).base = s.base := rfl

end commandBoundary

section resume
variable (s : State) 

@[simp] theorem State.resume_cfg : (s.resume).cfg = s.cfg := rfl
@[simp] theorem State.resume_dcsr : (s.resume).dcsr = s.dcsr := rfl
@[simp] theorem State.resume_dpc : (s.resume).dpc = s.dpc := rfl
@[simp] theorem State.resume_dscratch0 : (s.resume).dscratch0 = s.dscratch0 := rfl
@[simp] theorem State.resume_dscratch1 : (s.resume).dscratch1 = s.dscratch1 := rfl
@[simp] theorem State.resume_debugMode : (s.resume).debugMode = false := rfl
@[simp] theorem State.resume_haltreq : (s.resume).haltreq = s.haltreq := rfl
@[simp] theorem State.resume_group : (s.resume).group = s.group := rfl
@[simp] theorem State.resume_resethaltArmed : (s.resume).resethaltArmed = s.resethaltArmed := rfl
@[simp] theorem State.resume_resethaltPresent : (s.resume).resethaltPresent = s.resethaltPresent := rfl
@[simp] theorem State.resume_trigAfterPending : (s.resume).trigAfterPending = s.trigAfterPending := rfl
@[simp] theorem State.resume_timeAtEntry : (s.resume).timeAtEntry = s.timeAtEntry := rfl
@[simp] theorem State.resume_stoptimeSetInDebug : (s.resume).stoptimeSetInDebug = false := rfl
@[simp] theorem State.resume_scratchStale : (s.resume).scratchStale = true := rfl
@[simp] theorem State.resume_nmiPending : (s.resume).nmiPending = s.nmiPending := rfl
@[simp] theorem State.resume_nmiSeen : (s.resume).nmiSeen = s.nmiSeen := rfl
@[simp] theorem State.resume_mtime : (s.resume).mtime = s.mtime := rfl
@[simp] theorem State.resume_irqReady : (s.resume).irqReady = s.irqReady := rfl
@[simp] theorem State.resume_progbuf : (s.resume).progbuf = none := rfl
@[simp] theorem State.resume_pendingJump : (s.resume).pendingJump = s.pendingJump := rfl
@[simp] theorem State.resume_pcHistory : (s.resume).pcHistory = [] := rfl
@[simp] theorem State.resume_abstractResult : (s.resume).abstractResult = s.abstractResult := rfl
@[simp] theorem State.resume_env : (s.resume).env = s.env := rfl
@[simp] theorem State.resume_draws : (s.resume).draws = s.draws := rfl
@[simp] theorem State.resume_base_x : (s.resume).base.x = s.base.x := rfl
@[simp] theorem State.resume_base_pc : (s.resume).base.pc = s.dpc := rfl
@[simp] theorem State.resume_base_priv : (s.resume).base.priv = s.dcsr.prv := rfl
@[simp] theorem State.resume_base_virt : (s.resume).base.virt = s.dcsr.v := rfl
@[simp] theorem State.resume_base_mpp : (s.resume).base.mpp = s.base.mpp := rfl
@[simp] theorem State.resume_base_trapM : (s.resume).base.trapM = s.base.trapM := rfl
@[simp] theorem State.resume_base_trapS : (s.resume).base.trapS = s.base.trapS := rfl
@[simp] theorem State.resume_base_trapVS : (s.resume).base.trapVS = s.base.trapVS := rfl
@[simp] theorem State.resume_base_cycle : (s.resume).base.cycle = s.base.cycle := rfl
@[simp] theorem State.resume_base_instret : (s.resume).base.instret = s.base.instret := rfl
@[simp] theorem State.resume_base_localCounters : (s.resume).base.localCounters = s.base.localCounters := rfl
@[simp] theorem State.resume_base_mem : (s.resume).base.mem = s.base.mem := rfl
@[simp] theorem State.resume_base_other : (s.resume).base.other = s.base.other := rfl

end resume

section takeInterrupt
variable (s : State) 

@[simp] theorem State.takeInterrupt_cfg : (s.takeInterrupt).cfg = s.cfg := rfl
@[simp] theorem State.takeInterrupt_dcsr : (s.takeInterrupt).dcsr = s.dcsr := rfl
@[simp] theorem State.takeInterrupt_dpc : (s.takeInterrupt).dpc = s.dpc := rfl
@[simp] theorem State.takeInterrupt_dscratch0 : (s.takeInterrupt).dscratch0 = s.dscratch0 := rfl
@[simp] theorem State.takeInterrupt_dscratch1 : (s.takeInterrupt).dscratch1 = s.dscratch1 := rfl
@[simp] theorem State.takeInterrupt_debugMode : (s.takeInterrupt).debugMode = s.debugMode := rfl
@[simp] theorem State.takeInterrupt_haltreq : (s.takeInterrupt).haltreq = s.haltreq := rfl
@[simp] theorem State.takeInterrupt_group : (s.takeInterrupt).group = s.group := rfl
@[simp] theorem State.takeInterrupt_resethaltArmed : (s.takeInterrupt).resethaltArmed = s.resethaltArmed := rfl
@[simp] theorem State.takeInterrupt_resethaltPresent : (s.takeInterrupt).resethaltPresent = s.resethaltPresent := rfl
@[simp] theorem State.takeInterrupt_trigAfterPending : (s.takeInterrupt).trigAfterPending = s.trigAfterPending := rfl
@[simp] theorem State.takeInterrupt_timeAtEntry : (s.takeInterrupt).timeAtEntry = s.timeAtEntry := rfl
@[simp] theorem State.takeInterrupt_stoptimeSetInDebug : (s.takeInterrupt).stoptimeSetInDebug = s.stoptimeSetInDebug := rfl
@[simp] theorem State.takeInterrupt_scratchStale : (s.takeInterrupt).scratchStale = s.scratchStale := rfl
@[simp] theorem State.takeInterrupt_nmiPending : (s.takeInterrupt).nmiPending = s.nmiPending := rfl
@[simp] theorem State.takeInterrupt_nmiSeen : (s.takeInterrupt).nmiSeen = s.nmiSeen := rfl
@[simp] theorem State.takeInterrupt_mtime : (s.takeInterrupt).mtime = s.mtime := rfl
@[simp] theorem State.takeInterrupt_irqReady : (s.takeInterrupt).irqReady = false := rfl
@[simp] theorem State.takeInterrupt_progbuf : (s.takeInterrupt).progbuf = s.progbuf := rfl
@[simp] theorem State.takeInterrupt_pendingJump : (s.takeInterrupt).pendingJump = s.pendingJump := rfl
@[simp] theorem State.takeInterrupt_pcHistory : (s.takeInterrupt).pcHistory = s.base.pc :: s.pcHistory := rfl
@[simp] theorem State.takeInterrupt_abstractResult : (s.takeInterrupt).abstractResult = s.abstractResult := rfl
@[simp] theorem State.takeInterrupt_env : (s.takeInterrupt).env = s.env := rfl
@[simp] theorem State.takeInterrupt_draws : (s.takeInterrupt).draws = s.draws + 1 := rfl

end takeInterrupt

section writeDcsr
variable (s : State) (w : Word)

@[simp] theorem State.writeDcsr_cfg : (s.writeDcsr w).cfg = s.cfg := rfl
@[simp] theorem State.writeDcsr_dcsr :
    (s.writeDcsr w).dcsr = legalizeDcsr s.cfg s.dcsr (unpackDcsr s.cfg.layout (w.setWidth 32)) := rfl
@[simp] theorem State.writeDcsr_stoptimeSetInDebug :
    (s.writeDcsr w).stoptimeSetInDebug =
      (s.stoptimeSetInDebug || (s.debugMode && !s.dcsr.stoptime && (s.writeDcsr w).dcsr.stoptime)) := rfl
@[simp] theorem State.writeDcsr_dpc : (s.writeDcsr w).dpc = s.dpc := rfl
@[simp] theorem State.writeDcsr_dscratch0 : (s.writeDcsr w).dscratch0 = s.dscratch0 := rfl
@[simp] theorem State.writeDcsr_dscratch1 : (s.writeDcsr w).dscratch1 = s.dscratch1 := rfl
@[simp] theorem State.writeDcsr_debugMode : (s.writeDcsr w).debugMode = s.debugMode := rfl
@[simp] theorem State.writeDcsr_haltreq : (s.writeDcsr w).haltreq = s.haltreq := rfl
@[simp] theorem State.writeDcsr_group : (s.writeDcsr w).group = s.group := rfl
@[simp] theorem State.writeDcsr_resethaltArmed : (s.writeDcsr w).resethaltArmed = s.resethaltArmed := rfl
@[simp] theorem State.writeDcsr_scratchStale : (s.writeDcsr w).scratchStale = s.scratchStale := rfl
@[simp] theorem State.writeDcsr_resethaltPresent : (s.writeDcsr w).resethaltPresent = s.resethaltPresent := rfl
@[simp] theorem State.writeDcsr_trigAfterPending : (s.writeDcsr w).trigAfterPending = s.trigAfterPending := rfl
@[simp] theorem State.writeDcsr_timeAtEntry : (s.writeDcsr w).timeAtEntry = s.timeAtEntry := rfl
@[simp] theorem State.writeDcsr_nmiPending : (s.writeDcsr w).nmiPending = s.nmiPending := rfl
@[simp] theorem State.writeDcsr_nmiSeen : (s.writeDcsr w).nmiSeen = s.nmiSeen := rfl
@[simp] theorem State.writeDcsr_mtime : (s.writeDcsr w).mtime = s.mtime := rfl
@[simp] theorem State.writeDcsr_irqReady : (s.writeDcsr w).irqReady = s.irqReady := rfl
@[simp] theorem State.writeDcsr_progbuf : (s.writeDcsr w).progbuf = s.progbuf := rfl
@[simp] theorem State.writeDcsr_pendingJump : (s.writeDcsr w).pendingJump = s.pendingJump := rfl
@[simp] theorem State.writeDcsr_pcHistory : (s.writeDcsr w).pcHistory = s.pcHistory := rfl
@[simp] theorem State.writeDcsr_abstractResult : (s.writeDcsr w).abstractResult = s.abstractResult := rfl
@[simp] theorem State.writeDcsr_env : (s.writeDcsr w).env = s.env := rfl
@[simp] theorem State.writeDcsr_draws : (s.writeDcsr w).draws = s.draws := rfl
@[simp] theorem State.writeDcsr_base : (s.writeDcsr w).base = s.base := rfl

end writeDcsr

section notePc
variable (s : State) 

@[simp] theorem State.notePc_cfg : (s.notePc).cfg = s.cfg := rfl
@[simp] theorem State.notePc_dcsr : (s.notePc).dcsr = s.dcsr := rfl
@[simp] theorem State.notePc_dpc : (s.notePc).dpc = s.dpc := rfl
@[simp] theorem State.notePc_dscratch0 : (s.notePc).dscratch0 = s.dscratch0 := rfl
@[simp] theorem State.notePc_dscratch1 : (s.notePc).dscratch1 = s.dscratch1 := rfl
@[simp] theorem State.notePc_debugMode : (s.notePc).debugMode = s.debugMode := rfl
@[simp] theorem State.notePc_haltreq : (s.notePc).haltreq = s.haltreq := rfl
@[simp] theorem State.notePc_group : (s.notePc).group = s.group := rfl
@[simp] theorem State.notePc_resethaltArmed : (s.notePc).resethaltArmed = s.resethaltArmed := rfl
@[simp] theorem State.notePc_resethaltPresent : (s.notePc).resethaltPresent = s.resethaltPresent := rfl
@[simp] theorem State.notePc_trigAfterPending : (s.notePc).trigAfterPending = s.trigAfterPending := rfl
@[simp] theorem State.notePc_timeAtEntry : (s.notePc).timeAtEntry = s.timeAtEntry := rfl
@[simp] theorem State.notePc_stoptimeSetInDebug : (s.notePc).stoptimeSetInDebug = s.stoptimeSetInDebug := rfl
@[simp] theorem State.notePc_scratchStale : (s.notePc).scratchStale = s.scratchStale := rfl
@[simp] theorem State.notePc_nmiPending : (s.notePc).nmiPending = s.nmiPending := rfl
@[simp] theorem State.notePc_nmiSeen : (s.notePc).nmiSeen = s.nmiSeen := rfl
@[simp] theorem State.notePc_mtime : (s.notePc).mtime = s.mtime := rfl
@[simp] theorem State.notePc_irqReady : (s.notePc).irqReady = s.irqReady := rfl
@[simp] theorem State.notePc_progbuf : (s.notePc).progbuf = s.progbuf := rfl
@[simp] theorem State.notePc_pendingJump : (s.notePc).pendingJump = s.pendingJump := rfl
@[simp] theorem State.notePc_pcHistory : (s.notePc).pcHistory = s.base.pc :: s.pcHistory := rfl
@[simp] theorem State.notePc_abstractResult : (s.notePc).abstractResult = s.abstractResult := rfl
@[simp] theorem State.notePc_env : (s.notePc).env = s.env := rfl
@[simp] theorem State.notePc_draws : (s.notePc).draws = s.draws := rfl
@[simp] theorem State.notePc_base : (s.notePc).base = s.base := rfl

end notePc

section lateRequests
variable (s : State) (i : HartInputs)

@[simp] theorem State.lateRequests_cfg : (s.lateRequests i).cfg = s.cfg := rfl
@[simp] theorem State.lateRequests_dcsr : (s.lateRequests i).dcsr = s.dcsr := rfl
@[simp] theorem State.lateRequests_dpc : (s.lateRequests i).dpc = s.dpc := rfl
@[simp] theorem State.lateRequests_dscratch0 : (s.lateRequests i).dscratch0 = s.dscratch0 := rfl
@[simp] theorem State.lateRequests_dscratch1 : (s.lateRequests i).dscratch1 = s.dscratch1 := rfl
@[simp] theorem State.lateRequests_debugMode : (s.lateRequests i).debugMode = s.debugMode := rfl
@[simp] theorem State.lateRequests_haltreq : (s.lateRequests i).haltreq = (s.haltreq || i.lateHaltreq) := rfl
@[simp] theorem State.lateRequests_group : (s.lateRequests i).group = (s.group || i.lateGroup) := rfl
@[simp] theorem State.lateRequests_resethaltArmed : (s.lateRequests i).resethaltArmed = s.resethaltArmed := rfl
@[simp] theorem State.lateRequests_resethaltPresent : (s.lateRequests i).resethaltPresent = s.resethaltPresent := rfl
@[simp] theorem State.lateRequests_trigAfterPending : (s.lateRequests i).trigAfterPending = s.trigAfterPending := rfl
@[simp] theorem State.lateRequests_timeAtEntry : (s.lateRequests i).timeAtEntry = s.timeAtEntry := rfl
@[simp] theorem State.lateRequests_stoptimeSetInDebug : (s.lateRequests i).stoptimeSetInDebug = s.stoptimeSetInDebug := rfl
@[simp] theorem State.lateRequests_scratchStale : (s.lateRequests i).scratchStale = s.scratchStale := rfl
@[simp] theorem State.lateRequests_nmiPending : (s.lateRequests i).nmiPending = s.nmiPending := rfl
@[simp] theorem State.lateRequests_nmiSeen : (s.lateRequests i).nmiSeen = s.nmiSeen := rfl
@[simp] theorem State.lateRequests_mtime : (s.lateRequests i).mtime = s.mtime := rfl
@[simp] theorem State.lateRequests_irqReady : (s.lateRequests i).irqReady = s.irqReady := rfl
@[simp] theorem State.lateRequests_progbuf : (s.lateRequests i).progbuf = s.progbuf := rfl
@[simp] theorem State.lateRequests_pendingJump : (s.lateRequests i).pendingJump = s.pendingJump := rfl
@[simp] theorem State.lateRequests_pcHistory : (s.lateRequests i).pcHistory = s.pcHistory := rfl
@[simp] theorem State.lateRequests_abstractResult : (s.lateRequests i).abstractResult = s.abstractResult := rfl
@[simp] theorem State.lateRequests_env : (s.lateRequests i).env = s.env := rfl
@[simp] theorem State.lateRequests_draws : (s.lateRequests i).draws = s.draws := rfl
@[simp] theorem State.lateRequests_base : (s.lateRequests i).base = s.base := rfl

end lateRequests

section setProgbuf
variable (s : State) (p : Option (List Byte))

@[simp] theorem State.setProgbuf_cfg : (s.setProgbuf p).cfg = s.cfg := rfl
@[simp] theorem State.setProgbuf_dcsr : (s.setProgbuf p).dcsr = s.dcsr := rfl
@[simp] theorem State.setProgbuf_dpc : (s.setProgbuf p).dpc = s.dpc := rfl
@[simp] theorem State.setProgbuf_dscratch0 : (s.setProgbuf p).dscratch0 = s.dscratch0 := rfl
@[simp] theorem State.setProgbuf_dscratch1 : (s.setProgbuf p).dscratch1 = s.dscratch1 := rfl
@[simp] theorem State.setProgbuf_debugMode : (s.setProgbuf p).debugMode = s.debugMode := rfl
@[simp] theorem State.setProgbuf_haltreq : (s.setProgbuf p).haltreq = s.haltreq := rfl
@[simp] theorem State.setProgbuf_group : (s.setProgbuf p).group = s.group := rfl
@[simp] theorem State.setProgbuf_resethaltArmed : (s.setProgbuf p).resethaltArmed = s.resethaltArmed := rfl
@[simp] theorem State.setProgbuf_resethaltPresent : (s.setProgbuf p).resethaltPresent = s.resethaltPresent := rfl
@[simp] theorem State.setProgbuf_trigAfterPending : (s.setProgbuf p).trigAfterPending = s.trigAfterPending := rfl
@[simp] theorem State.setProgbuf_timeAtEntry : (s.setProgbuf p).timeAtEntry = s.timeAtEntry := rfl
@[simp] theorem State.setProgbuf_stoptimeSetInDebug : (s.setProgbuf p).stoptimeSetInDebug = s.stoptimeSetInDebug := rfl
@[simp] theorem State.setProgbuf_scratchStale : (s.setProgbuf p).scratchStale = s.scratchStale := rfl
@[simp] theorem State.setProgbuf_nmiPending : (s.setProgbuf p).nmiPending = s.nmiPending := rfl
@[simp] theorem State.setProgbuf_nmiSeen : (s.setProgbuf p).nmiSeen = s.nmiSeen := rfl
@[simp] theorem State.setProgbuf_mtime : (s.setProgbuf p).mtime = s.mtime := rfl
@[simp] theorem State.setProgbuf_irqReady : (s.setProgbuf p).irqReady = s.irqReady := rfl
@[simp] theorem State.setProgbuf_progbuf : (s.setProgbuf p).progbuf = p := rfl
@[simp] theorem State.setProgbuf_pendingJump : (s.setProgbuf p).pendingJump = s.pendingJump := rfl
@[simp] theorem State.setProgbuf_pcHistory : (s.setProgbuf p).pcHistory = s.pcHistory := rfl
@[simp] theorem State.setProgbuf_abstractResult : (s.setProgbuf p).abstractResult = s.abstractResult := rfl
@[simp] theorem State.setProgbuf_env : (s.setProgbuf p).env = s.env := rfl
@[simp] theorem State.setProgbuf_draws : (s.setProgbuf p).draws = s.draws := rfl
@[simp] theorem State.setProgbuf_base : (s.setProgbuf p).base = s.base := rfl

end setProgbuf

section setEnv
variable (s : State) (l : List Event)

@[simp] theorem State.setEnv_cfg : (s.setEnv l).cfg = s.cfg := rfl
@[simp] theorem State.setEnv_dcsr : (s.setEnv l).dcsr = s.dcsr := rfl
@[simp] theorem State.setEnv_dpc : (s.setEnv l).dpc = s.dpc := rfl
@[simp] theorem State.setEnv_dscratch0 : (s.setEnv l).dscratch0 = s.dscratch0 := rfl
@[simp] theorem State.setEnv_dscratch1 : (s.setEnv l).dscratch1 = s.dscratch1 := rfl
@[simp] theorem State.setEnv_debugMode : (s.setEnv l).debugMode = s.debugMode := rfl
@[simp] theorem State.setEnv_haltreq : (s.setEnv l).haltreq = s.haltreq := rfl
@[simp] theorem State.setEnv_group : (s.setEnv l).group = s.group := rfl
@[simp] theorem State.setEnv_resethaltArmed : (s.setEnv l).resethaltArmed = s.resethaltArmed := rfl
@[simp] theorem State.setEnv_resethaltPresent : (s.setEnv l).resethaltPresent = s.resethaltPresent := rfl
@[simp] theorem State.setEnv_trigAfterPending : (s.setEnv l).trigAfterPending = s.trigAfterPending := rfl
@[simp] theorem State.setEnv_timeAtEntry : (s.setEnv l).timeAtEntry = s.timeAtEntry := rfl
@[simp] theorem State.setEnv_stoptimeSetInDebug : (s.setEnv l).stoptimeSetInDebug = s.stoptimeSetInDebug := rfl
@[simp] theorem State.setEnv_scratchStale : (s.setEnv l).scratchStale = s.scratchStale := rfl
@[simp] theorem State.setEnv_nmiPending : (s.setEnv l).nmiPending = s.nmiPending := rfl
@[simp] theorem State.setEnv_nmiSeen : (s.setEnv l).nmiSeen = s.nmiSeen := rfl
@[simp] theorem State.setEnv_mtime : (s.setEnv l).mtime = s.mtime := rfl
@[simp] theorem State.setEnv_irqReady : (s.setEnv l).irqReady = s.irqReady := rfl
@[simp] theorem State.setEnv_progbuf : (s.setEnv l).progbuf = s.progbuf := rfl
@[simp] theorem State.setEnv_pendingJump : (s.setEnv l).pendingJump = s.pendingJump := rfl
@[simp] theorem State.setEnv_pcHistory : (s.setEnv l).pcHistory = s.pcHistory := rfl
@[simp] theorem State.setEnv_abstractResult : (s.setEnv l).abstractResult = s.abstractResult := rfl
@[simp] theorem State.setEnv_env : (s.setEnv l).env = l := rfl
@[simp] theorem State.setEnv_draws : (s.setEnv l).draws = s.draws := rfl
@[simp] theorem State.setEnv_base : (s.setEnv l).base = s.base := rfl

end setEnv

section returnToDebugger
variable (s : State) (w : Word)

@[simp] theorem State.returnToDebugger_cfg : (s.returnToDebugger w).cfg = s.cfg := rfl
@[simp] theorem State.returnToDebugger_dcsr : (s.returnToDebugger w).dcsr = s.dcsr := rfl
@[simp] theorem State.returnToDebugger_dpc : (s.returnToDebugger w).dpc = s.dpc := rfl
@[simp] theorem State.returnToDebugger_dscratch0 : (s.returnToDebugger w).dscratch0 = s.dscratch0 := rfl
@[simp] theorem State.returnToDebugger_dscratch1 : (s.returnToDebugger w).dscratch1 = s.dscratch1 := rfl
@[simp] theorem State.returnToDebugger_debugMode : (s.returnToDebugger w).debugMode = s.debugMode := rfl
@[simp] theorem State.returnToDebugger_haltreq : (s.returnToDebugger w).haltreq = s.haltreq := rfl
@[simp] theorem State.returnToDebugger_group : (s.returnToDebugger w).group = s.group := rfl
@[simp] theorem State.returnToDebugger_resethaltArmed : (s.returnToDebugger w).resethaltArmed = s.resethaltArmed := rfl
@[simp] theorem State.returnToDebugger_resethaltPresent : (s.returnToDebugger w).resethaltPresent = s.resethaltPresent := rfl
@[simp] theorem State.returnToDebugger_trigAfterPending : (s.returnToDebugger w).trigAfterPending = s.trigAfterPending := rfl
@[simp] theorem State.returnToDebugger_timeAtEntry : (s.returnToDebugger w).timeAtEntry = s.timeAtEntry := rfl
@[simp] theorem State.returnToDebugger_stoptimeSetInDebug : (s.returnToDebugger w).stoptimeSetInDebug = s.stoptimeSetInDebug := rfl
@[simp] theorem State.returnToDebugger_scratchStale : (s.returnToDebugger w).scratchStale = s.scratchStale := rfl
@[simp] theorem State.returnToDebugger_nmiPending : (s.returnToDebugger w).nmiPending = s.nmiPending := rfl
@[simp] theorem State.returnToDebugger_nmiSeen : (s.returnToDebugger w).nmiSeen = s.nmiSeen := rfl
@[simp] theorem State.returnToDebugger_mtime : (s.returnToDebugger w).mtime = s.mtime := rfl
@[simp] theorem State.returnToDebugger_irqReady : (s.returnToDebugger w).irqReady = s.irqReady := rfl
@[simp] theorem State.returnToDebugger_progbuf : (s.returnToDebugger w).progbuf = s.progbuf := rfl
@[simp] theorem State.returnToDebugger_pendingJump : (s.returnToDebugger w).pendingJump = s.pendingJump := rfl
@[simp] theorem State.returnToDebugger_pcHistory : (s.returnToDebugger w).pcHistory = s.pcHistory := rfl
@[simp] theorem State.returnToDebugger_abstractResult : (s.returnToDebugger w).abstractResult = some w := rfl
@[simp] theorem State.returnToDebugger_env : (s.returnToDebugger w).env = s.env := rfl
@[simp] theorem State.returnToDebugger_draws : (s.returnToDebugger w).draws = s.draws + 1 := rfl
@[simp] theorem State.returnToDebugger_base : (s.returnToDebugger w).base = s.base := rfl

end returnToDebugger

end Sys2Proof.Machine
end

