-- ==== Sys2Proof/Laws/Ops.lean ====
section
/-! SUPPORT. What each shared operation can do, said once: if it answers a next state, one of these cases holds. -/

namespace Sys2Proof.Machine

theorem mapNext_eq_next {f : State → State} {o : Host.Outcome State Fault Refusal} {t : State}
    (h : mapNext f o = .next t) : ∃ u, o = .next u ∧ t = f u := by
  cases o with
  | next u => exact ⟨u, rfl, (Host.Outcome.next.inj h).symm⟩
  | fault r => cases h
  | refused r => cases h

/-- An instruction of the base hart: in Debug Mode an exception only ends the Program Buffer; otherwise its effect. -/
theorem baseInstr_cases (s : State) (bytes : List Byte) (n : Option Nat) :
    (s.debugMode = true ∧ s.baseInstr bytes n = (s.tick false false).setProgbuf none) ∨
    s.baseInstr bytes n =
      (s.applyEffect n (Config.baseExec s.cfg s.draws (s.baseCtx bytes) s.execBase)).tick
        (Config.baseExec s.cfg s.draws (s.baseCtx bytes) s.execBase).retired false := by
  simp only [State.baseInstr]
  split
  · rename_i h
    exact .inl ⟨(Bool.and_eq_true _ _ ▸ h).1, rfl⟩
  · exact .inr rfl

/-- An exception: ends the Program Buffer in Debug Mode, traps outside. -/
theorem raise_cases (s : State) (e : Exc) :
    (s.debugMode = true ∧ s.raise e = (s.tick false false).setProgbuf none) ∨
    (s.debugMode = false ∧ s.raise e = (s.tick false false).takeTrap e) := by
  unfold State.raise
  cases h : s.debugMode <;> simp

/-- An exception outside Debug Mode leaves the debug layer as it was. -/
theorem raise_running {s : State} (e : Exc) (hs : s.debugMode = false) :
    s.raise e = { s with draws := (s.raise e).draws, base := (s.raise e).base } := by
  rcases raise_cases s e with ⟨hd, -⟩ | ⟨-, h⟩
  · simp [hs] at hd
  · rw [h]
    rfl

/-- What the six CSR instructions share. -/
theorem csrInstr_next {i : Instr} {rd : Reg} {csr : CsrAddr} {op : CsrOp} {w : Word} {writes : Bool} {s t : State}
    (h : csrInstr i rd csr op w writes s = .next t) :
    t = s.baseInstr (encode i) (some i.length) ∨
    t = s.raise (.illegalInstruction (encode i)) ∨
    ∃ r, csrAt csr = some r ∧ s.csrAccessible r = true ∧ (writes = true → s.mayWrite r = true) ∧
      (t = (s.tick true false).setReg rd (s.readCsr r) ∨
       t = ((s.tick true false).setReg rd (s.readCsr r)).writeCsr r (csrNewValue op (s.readCsr r) w)) := by
  unfold csrInstr at h
  split at h
  · exact .inl (Host.Outcome.next.inj h).symm
  · rename_i r hr
    split at h
    · rename_i ha
      split at h
      · cases h
      · rename_i hm
        refine .inr (.inr ⟨r, hr, ha, fun hw => by simpa [hw] using hm, ?_⟩)
        have h := (Host.Outcome.next.inj h).symm
        split at h
        · exact .inr h
        · exact .inl h
    · exact .inr (.inl (Host.Outcome.next.inj h).symm)

/-- What `ebreak` and `c.ebreak` share. -/
theorem ebreakEffect_next {s t : State} (h : ebreakEffect s = .next t) :
    (s.debugMode = true ∧ t = (s.tick true false).setProgbuf none) ∨
    (s.debugMode = false ∧ s.ebreakToDebug = some true ∧ t = (s.tick true true).enterDebug .ebreak s.base.pc) ∨
    (s.debugMode = false ∧ s.ebreakToDebug = some false ∧ t = s.raise (.breakpoint s.base.pc)) := by
  unfold ebreakEffect at h
  split at h
  · rename_i hd
    exact .inl ⟨hd, (Host.Outcome.next.inj h).symm⟩
  · rename_i hd
    have hd : s.debugMode = false := by simpa using hd
    split at h
    · rename_i he
      exact .inr (.inl ⟨hd, he, (Host.Outcome.next.inj h).symm⟩)
    · rename_i he
      exact .inr (.inr ⟨hd, he, (Host.Outcome.next.inj h).symm⟩)
    · cases h

/-- What a next state of an instruction is made by: the base hart, one of the two exceptions, a CSR access, an entry into Debug Mode, the
end of the Program Buffer, or a resume. -/
inductive ExecShape (s : State) : State → Prop where
  | base (bytes : List Byte) (n : Option Nat) : ExecShape s (s.baseInstr bytes n)
  | illegal (instr : List Byte) : ExecShape s (s.raise (.illegalInstruction instr))
  | breakpoint (h : s.debugMode = false) : ExecShape s (s.raise (.breakpoint s.base.pc))
  | csrRead (r : DebugCsr) (rd : Reg) (h : s.csrAccessible r = true) :
      ExecShape s ((s.tick true false).setReg rd (s.readCsr r))
  | csrWrite (r : DebugCsr) (rd : Reg) (w : Word) (h : s.csrAccessible r = true) :
      ExecShape s (((s.tick true false).setReg rd (s.readCsr r)).writeCsr r w)
  | enter (h : s.debugMode = false) : ExecShape s ((s.tick true true).enterDebug .ebreak s.base.pc)
  | endProgbuf (h : s.debugMode = true) : ExecShape s ((s.tick true false).setProgbuf none)
  | resume (h : s.debugMode = true) : ExecShape s (s.tick true false).resume

theorem csrInstr_shape {i : Instr} {rd : Reg} {csr : CsrAddr} {op : CsrOp} {w : Word} {writes : Bool} {s t : State}
    (h : csrInstr i rd csr op w writes s = .next t) : ExecShape s t := by
  rcases csrInstr_next h with rfl | rfl | ⟨r, -, ha, -, rfl | rfl⟩
  · exact .base _ _
  · exact .illegal _
  · exact .csrRead r rd ha
  · exact .csrWrite r rd _ ha

theorem ebreakEffect_shape {s t : State} (h : ebreakEffect s = .next t) : ExecShape s t := by
  rcases ebreakEffect_next h with ⟨hd, rfl⟩ | ⟨hd, -, rfl⟩ | ⟨hd, -, rfl⟩
  · exact .endProgbuf hd
  · exact .enter hd
  · exact .breakpoint hd

/-- Every next state of `exec` has one of the shapes. -/
theorem exec_shape {i : Instr} {s t : State} (h : exec i s = .next t) : ExecShape s t := by
  cases i with
  | csrrw rd csr rs1 => exact csrInstr_shape h
  | csrrs rd csr rs1 => exact csrInstr_shape h
  | csrrc rd csr rs1 => exact csrInstr_shape h
  | csrrwi rd csr uimm => exact csrInstr_shape h
  | csrrsi rd csr uimm => exact csrInstr_shape h
  | csrrci rd csr uimm => exact csrInstr_shape h
  | ebreak => exact ebreakEffect_shape h
  | cEbreak =>
    simp only [exec, execCEbreak] at h
    split at h
    · exact ebreakEffect_shape h
    · cases h
      exact .base _ _
  | dret =>
    simp only [exec, execDret] at h
    split at h
    · rename_i hd
      cases h
      exact .resume (Bool.and_eq_true _ _ ▸ hd).1
    · cases h
      exact .illegal _

/-- The end of a step outside Debug Mode: nothing follows an instruction that entered Debug Mode; otherwise a trigger is
carried and, with `step`, Debug Mode is entered. -/
theorem afterInstr_cases (s : State) (inputs : HartInputs) :
    (s.debugMode = true ∧ s.afterInstr inputs = s.lateRequests inputs) ∨
    (s.debugMode = false ∧ ∃ u, u = { s.lateRequests inputs with
        trigAfterPending := s.cfg.hasTriggers && inputs.trigAfter
        pendingJump := s.pendingJump.map fun (j : Nat × Word) => (j.1 - 1, j.2) } ∧
      (s.afterInstr inputs = u ∨
       (s.dcsr.step = true ∧ ∃ r, highest s.cfg (.step :: u.asyncReasons) = some r ∧
        s.afterInstr inputs = u.enterDebug r u.base.pc))) := by
  cases hd : s.debugMode with
  | true => exact .inl ⟨rfl, by simp [State.afterInstr, hd]⟩
  | false =>
    refine .inr ⟨rfl, _, rfl, ?_⟩
    cases hs : s.dcsr.step with
    | false => exact .inl (by simp [State.afterInstr, hd, hs])
    | true =>
      simp only [State.afterInstr, State.lateRequests_debugMode, hd, State.lateRequests_dcsr, hs, Bool.false_eq_true,
        if_false, if_true]
      split
      · rename_i r hr
        exact .inr ⟨trivial, r, hr, rfl⟩
      · exact .inl rfl

/-- What executing the instruction at `pc` can do. -/
theorem executeAtPc_shape {s t : State} (h : s.executeAtPc = .next t) : ExecShape s.notePc t := by
  unfold State.executeAtPc at h
  split at h
  · exact exec_shape h
  · cases h
    exact .base _ _

/-- What a step outside Debug Mode can do: enter Debug Mode at `pc` for a reason, execute the instruction at `pc`, or take
an interrupt (and, on some harts, then execute the handler's first instruction). -/
theorem runStep_next {s0 t : State} {inputs : HartInputs} (h : s0.runStep inputs = .next t) :
    (∃ r, highest s0.takeJump.cfg (s0.takeJump.reasonsBefore inputs (decoded s0.takeJump.fetch)) = some r ∧
      t = ((s0.takeJump.tick false false).enterDebug r s0.takeJump.base.pc).lateRequests inputs) ∨
    (∃ u, s0.takeJump.executeAtPc = .next u ∧ t = u.afterInstr inputs) ∨
    (s0.takeJump.irqReady = true ∧ s0.takeJump.interruptsMasked = false ∧
      (t = s0.takeJump.takeInterrupt.afterInstr inputs ∨
       ∃ u, s0.takeJump.takeInterrupt.executeAtPc = .next u ∧ t = u.afterInstr inputs)) := by
  unfold State.runStep at h
  simp only at h
  split at h
  · exact .inr (.inl (mapNext_eq_next h))
  · rename_i r _ hr
    exact .inl ⟨_, hr, (Host.Outcome.next.inj h).symm⟩
  · split at h
    · rename_i hi
      simp only [Bool.and_eq_true, Bool.not_eq_true'] at hi
      refine .inr (.inr ⟨hi.1, hi.2, ?_⟩)
      unfold State.interruptStep at h
      simp only at h
      split at h
      · exact .inr (mapNext_eq_next h)
      · exact .inl (Host.Outcome.next.inj h).symm
    · exact .inr (.inl (mapNext_eq_next h))

/-- The boundary before a halted hart's own code: at most the scratch registers and the number of the next free value change,
and no resume is left to account for. -/
theorem freshScratch_eq (s : State) :
    s.freshScratch =
        { s with
          dscratch0 := s.freshScratch.dscratch0, dscratch1 := s.freshScratch.dscratch1
          scratchStale := false, draws := s.freshScratch.draws } ∧
      (s.scratchStale = false → s.freshScratch = s) := by
  unfold State.freshScratch
  cases h : s.scratchStale
  · refine ⟨?_, fun _ => rfl⟩
    cases s
    simp_all
  · exact ⟨rfl, fun h => by cases h⟩

/-- What a halted hart can do of its own: count, or, where it has code of its own, execute an instruction of that. -/
theorem haltedStep_next {s t : State} (h : s.haltedStep = .next t) :
    t = s.tick false false ∨
    (s.cfg.debugExec = .implementation ∧
      ((∃ i, decoded (Config.debugCode s.cfg s.draws s.base) = some i ∧ exec i s.freshScratch = .next t) ∨
       ∃ n, t = s.freshScratch.baseInstr (Config.debugCode s.cfg s.draws s.base) n)) := by
  unfold State.haltedStep at h
  split at h
  · exact .inl (Host.Outcome.next.inj h).symm
  · rename_i hp
    split at h
    · exact .inl (Host.Outcome.next.inj h).symm
    · rename_i hc
      refine .inr ⟨hp, ?_⟩
      rw [hc]
      split at h
      · rename_i i hi
        exact .inl ⟨i, hi, h⟩
      · exact .inr ⟨_, (Host.Outcome.next.inj h).symm⟩

/-- What a step in Debug Mode can do: what a halted hart does of its own, the end of the Program Buffer, or an instruction
of it. -/
theorem debugStep_next {s t : State} (h : s.debugStep = .next t) :
    (s.progbuf = none ∧ s.haltedStep = .next t) ∨
    (s.progbuf = some [] ∧ t = ((s.tick false false).setProgbuf none).closeProgbuf) ∨
    (∃ bytes u, s.progbuf = some bytes ∧ s.progbufInstr bytes = .next u ∧ t = u.closeProgbuf) := by
  unfold State.debugStep at h
  split at h
  · rename_i hp
    exact .inl ⟨hp, h⟩
  · rename_i hp
    exact .inr (.inl ⟨hp, (Host.Outcome.next.inj h).symm⟩)
  · rename_i hp
    obtain ⟨u, hu, rfl⟩ := mapNext_eq_next h
    exact .inr (.inr ⟨_, u, hp, hu, rfl⟩)

/-- What an instruction of the Program Buffer can do. -/
theorem progbufInstr_next {s t : State} {bytes : List Byte} (h : s.progbufInstr bytes = .next t) :
    (∃ i rest, decode bytes = .ok (i, rest) ∧ exec i (s.setProgbuf (some rest)) = .next t) ∨
    (∃ n, t = (s.setProgbuf (some (bytes.drop n))).baseInstr (bytes.take n) (some n)) ∨
    t = s.raise (.illegalInstruction bytes) := by
  unfold State.progbufInstr at h
  split at h
  · rename_i i rest hd
    exact .inl ⟨i, rest, hd, h⟩
  · split at h
    · rename_i n _
      split at h
      · exact .inr (.inl ⟨n, (Host.Outcome.next.inj h).symm⟩)
      · exact .inr (.inr (Host.Outcome.next.inj h).symm)
    · exact .inr (.inr (Host.Outcome.next.inj h).symm)

/-- A step that goes on is the next thing to happen. -/
theorem step_next {s t : State} (h : step s = .next t) :
    s.outsideSpec = none ∧ s.stuck = none ∧ s.advance = .next t := by
  unfold step at h
  split at h
  · cases h
  · rename_i ho
    split at h
    · cases h
    · rename_i hs
      exact ⟨ho, hs, h⟩

/-- The next thing to happen: a step of the hart with the inputs the environment gives, or an event that is none. -/
theorem advance_next {s t : State} (h : s.advance = .next t) :
    (∃ env inputs, s.hartStep inputs = .next t ∧ env = s.env) ∨
    (∃ e rest, s.env = e :: rest ∧ (s.setEnv rest).applyEvent e = .next t) := by
  unfold State.advance at h
  split at h
  · exact .inl ⟨_, _, h, rfl⟩
  · rename_i e rest he
    split at h
    · exact .inl ⟨_, _, h, rfl⟩
    · exact .inr ⟨e, rest, he, h⟩

/-- The jump of a `dpc` write while running, when its count is 0: it changes `pc`, noting the address it leaves. -/
theorem takeJump_cases (s : State) :
    s.takeJump = s ∨
    ∃ w, s.pendingJump = some (0, w) ∧
      s.takeJump = { s with
        base := { s.base with pc := dpcLegalize s.cfg w }, pendingJump := none, pcHistory := s.base.pc :: s.pcHistory } := by
  unfold State.takeJump
  split
  · rename_i w h
    exact .inr ⟨w, h, rfl⟩
  · exact .inl rfl
  · exact .inl rfl

@[simp] theorem takeJump_debugMode (s : State) : s.takeJump.debugMode = s.debugMode := by
  rcases takeJump_cases s with h | ⟨w, -, h⟩ <;> rw [h]

@[simp] theorem takeJump_cfg (s : State) : s.takeJump.cfg = s.cfg := by
  rcases takeJump_cases s with h | ⟨w, -, h⟩ <;> rw [h]

/-- What an instruction that starts and ends outside Debug Mode leaves as it was: all of the debug layer. -/
theorem ExecShape.running {s t : State} (h : ExecShape s t) (hs : s.debugMode = false) (ht : t.debugMode = false) :
    t = { s with draws := t.draws, base := t.base } := by
  cases h with
  | base bytes n =>
    rcases baseInstr_cases s bytes n with ⟨hd, -⟩ | h
    · simp [hs] at hd
    · rw [h]
      rfl
  | illegal instr => exact raise_running _ hs
  | breakpoint => exact raise_running _ hs
  | csrRead r rd h => simp [State.csrAccessible, hs] at h
  | csrWrite r rd w h => simp [State.csrAccessible, hs] at h
  | enter h => cases ht
  | endProgbuf h => simp [hs] at h
  | resume h => simp [hs] at h

/-- After an instruction of the Program Buffer: nothing more, or a clobbered `dpc`. -/
theorem closeProgbuf_cases (s : State) :
    s.closeProgbuf = s ∨
    (s.progbuf = none ∧ s.cfg.progbufClobbers = true ∧
      s.closeProgbuf = { s with dpc := instrAddress s.cfg (s.draw .clobberedDpc), draws := s.draws + 1 }) := by
  unfold State.closeProgbuf State.clobberDpc
  split
  · rename_i hp
    split
    · rename_i hc
      exact .inr ⟨hp, hc, rfl⟩
    · exact .inl rfl
  · exact .inl rfl

/-- A reset: its own effect, or with the request armed, on a hart that halts in it, an entry into Debug Mode for
resethaltreq at the reset `pc`. -/
theorem resetEvent_cases (s : State) :
    s.resetEvent = s.resetCore ∨
    (s.resethaltArmed = true ∧ s.cfg.resetHaltByOrder = false ∧
      s.resetEvent = s.resetCore.enterDebug .resethaltreq s.resetCore.base.pc) := by
  unfold State.resetEvent
  simp only
  split
  · rename_i ha
    simp only [Bool.and_eq_true, Bool.not_eq_true'] at ha
    exact .inr ⟨ha.1, ha.2, rfl⟩
  · exact .inl rfl

/-- An abstract read that is answered. -/
theorem abstractRead_next {s t : State} {r : DebugCsr} {p : Option (List Byte)} (h : s.abstractRead r p = .next t) :
    s.csrAccessible r = true ∧
    t = (s.commandBoundary.returnToDebugger (s.commandBoundary.readCsr r)).startProgbuf p := by
  unfold State.abstractRead at h
  split at h
  · rename_i hd
    split at h
    · rename_i hp
      exact ⟨by simp [State.csrAccessible, hd, hp], (Host.Outcome.next.inj h).symm⟩
    · cases h
  · cases h

/-- An abstract write that is made. -/
theorem abstractWrite_next {s t : State} {r : DebugCsr} {w : Word} {p : Option (List Byte)}
    (h : s.abstractWrite r w p = .next t) :
    s.csrAccessible r = true ∧ mentioned s.cfg r = true ∧ t = (s.commandBoundary.writeCsr r w).startProgbuf p := by
  unfold State.abstractWrite at h
  split at h
  · rename_i hd
    split at h
    · rename_i hp
      split at h
      · rename_i hm
        exact ⟨by simp [State.csrAccessible, hd, hp], hm, (Host.Outcome.next.inj h).symm⟩
      · cases h
    · cases h
  · cases h

end Sys2Proof.Machine
end

