-- ==== Sys2Proof/Laws/PerInstr.lean ====
section
/-! SUPPORT. Statements about every instruction as syntax, one lemma per constructor. -/

namespace Sys2Proof.Laws

/-- The parcel of a 32-bit I-type word of the SYSTEM opcode names the length 4. -/
theorem instrLength_wordBytes_iType (csr : CsrAddr) (rs1 : BitVec 5) (f : BitVec 3) (rd : Reg) (rest : List Byte) :
    instrLength (wordBytes (iType csr rs1 f rd) 4 ++ rest) = some 4 := by
  have low : (parcelOf ((iType csr rs1 f rd).extractLsb' 0 8) ((iType csr rs1 f rd >>> 8).extractLsb' 0 8)).extractLsb' 0 2
      = 0b11#2 := by
    apply BitVec.eq_of_getLsbD_eq
    intro i hi
    interval_cases i <;> simp [iType, parcelOf]
  have mid : (parcelOf ((iType csr rs1 f rd).extractLsb' 0 8) ((iType csr rs1 f rd >>> 8).extractLsb' 0 8)).extractLsb' 2 3
      ≠ 0b111#3 := by
    intro h
    have := congrArg (fun v => v.getLsbD 0) h
    simp [iType, parcelOf] at this
  simp only [wordBytes, List.cons_append, instrLength, parcelLength, low]
  simp [mid]

/-- An I-type word under the mask of funct3 and opcode. -/
theorem iType_masked (csr : CsrAddr) (rs1 : BitVec 5) (f : BitVec 3) (rd : Reg) :
    iType csr rs1 f rd &&& 0x0000707f = (f.setWidth 32 <<< 12) ||| 0x73 := by
  apply BitVec.eq_of_getLsbD_eq
  intro i hi
  interval_cases i <;> simp [iType]

/-- The bytes of an instruction begin with a parcel that names the instruction's length (30_encoding.md R95). -/
def InstrLength.Statement (i : Instr) : Prop := ∀ rest : List Byte, instrLength (encode i ++ rest) = some i.length

theorem InstrLength.csrrw (rd : Reg) (csr : CsrAddr) (rs1 : Reg) : InstrLength.Statement (.csrrw rd csr rs1) :=
  fun rest => instrLength_wordBytes_iType csr _ 1 rd rest
theorem InstrLength.csrrs (rd : Reg) (csr : CsrAddr) (rs1 : Reg) : InstrLength.Statement (.csrrs rd csr rs1) :=
  fun rest => instrLength_wordBytes_iType csr _ 2 rd rest
theorem InstrLength.csrrc (rd : Reg) (csr : CsrAddr) (rs1 : Reg) : InstrLength.Statement (.csrrc rd csr rs1) :=
  fun rest => instrLength_wordBytes_iType csr _ 3 rd rest
theorem InstrLength.csrrwi (rd : Reg) (csr : CsrAddr) (uimm : Uimm) : InstrLength.Statement (.csrrwi rd csr uimm) :=
  fun rest => instrLength_wordBytes_iType csr uimm 5 rd rest
theorem InstrLength.csrrsi (rd : Reg) (csr : CsrAddr) (uimm : Uimm) : InstrLength.Statement (.csrrsi rd csr uimm) :=
  fun rest => instrLength_wordBytes_iType csr uimm 6 rd rest
theorem InstrLength.csrrci (rd : Reg) (csr : CsrAddr) (uimm : Uimm) : InstrLength.Statement (.csrrci rd csr uimm) :=
  fun rest => instrLength_wordBytes_iType csr uimm 7 rd rest
theorem InstrLength.ebreak : InstrLength.Statement .ebreak :=
  fun rest => instrLength_wordBytes_iType 0x001 0 0 0 rest
theorem InstrLength.cEbreak : InstrLength.Statement .cEbreak := fun _ => rfl
theorem InstrLength.dret : InstrLength.Statement .dret :=
  fun rest => instrLength_wordBytes_iType 0x7b2 0 0 0 rest

/-- The word of an instruction matches its row of the opcode map (30_encoding.md R99). -/
def OpcodeMap.Statement (i : Instr) : Prop := encodeWord i &&& (matchMask i).2 = (matchMask i).1

theorem OpcodeMap.csrrw (rd : Reg) (csr : CsrAddr) (rs1 : Reg) : OpcodeMap.Statement (.csrrw rd csr rs1) :=
  iType_masked csr _ 1 rd
theorem OpcodeMap.csrrs (rd : Reg) (csr : CsrAddr) (rs1 : Reg) : OpcodeMap.Statement (.csrrs rd csr rs1) :=
  iType_masked csr _ 2 rd
theorem OpcodeMap.csrrc (rd : Reg) (csr : CsrAddr) (rs1 : Reg) : OpcodeMap.Statement (.csrrc rd csr rs1) :=
  iType_masked csr _ 3 rd
theorem OpcodeMap.csrrwi (rd : Reg) (csr : CsrAddr) (uimm : Uimm) : OpcodeMap.Statement (.csrrwi rd csr uimm) :=
  iType_masked csr uimm 5 rd
theorem OpcodeMap.csrrsi (rd : Reg) (csr : CsrAddr) (uimm : Uimm) : OpcodeMap.Statement (.csrrsi rd csr uimm) :=
  iType_masked csr uimm 6 rd
theorem OpcodeMap.csrrci (rd : Reg) (csr : CsrAddr) (uimm : Uimm) : OpcodeMap.Statement (.csrrci rd csr uimm) :=
  iType_masked csr uimm 7 rd
theorem OpcodeMap.ebreak : OpcodeMap.Statement .ebreak := by unfold OpcodeMap.Statement; decide
theorem OpcodeMap.cEbreak : OpcodeMap.Statement .cEbreak := by unfold OpcodeMap.Statement; decide
theorem OpcodeMap.dret : OpcodeMap.Statement .dret := by unfold OpcodeMap.Statement; decide

end Sys2Proof.Laws
end

