-- ==== Sys2Proof/Laws/Words.lean ====
section
/-! SUPPORT. Laws of XLEN-bit values, instruction addresses, general registers and the registers of a trap. -/

namespace Sys2Proof.Machine

@[simp] theorem trunc_trunc (c : Config) (w : Word) : trunc c (trunc c w) = trunc c w := by
  unfold trunc
  split
  · simp [BitVec.and_assoc]
  · rfl

@[simp] theorem trunc_zero (c : Config) : trunc c 0 = 0 := by unfold trunc; split <;> rfl

@[simp] theorem trunc_instrAddress (c : Config) (w : Word) : trunc c (instrAddress c w) = instrAddress c w := by
  unfold instrAddress clearLowBits trunc
  split
  · split <;> (ext i; simp; tauto)
  · rfl

@[simp] theorem instrAddress_instrAddress (c : Config) (w : Word) :
    instrAddress c (instrAddress c w) = instrAddress c w := by
  rw [instrAddress, trunc_instrAddress]
  unfold instrAddress clearLowBits
  split <;> rw [BitVec.and_assoc, BitVec.and_self]

/-- What `dpc` holds after a write is an instruction address (10_state.md R39). -/
@[simp] theorem instrAddress_dpcLegalize (c : Config) (w : Word) : instrAddress c (dpcLegalize c w) = dpcLegalize c w := by
  unfold dpcLegalize
  split
  · simp
  · split
    · simp
    · split <;> simp

@[simp] theorem trunc_draw (s : State) (d : Config.Draw) : trunc s.cfg (s.draw d) = s.draw d := by simp [State.draw]

@[simp] theorem TrapRegs.trunc_trunc (c : Config) (t : TrapRegs) : (t.trunc c).trunc c = t.trunc c := by
  simp [TrapRegs.trunc]

/-- Reading a general register after a write: the written value, XLEN bits of it, in that register unless it is `x0`; the
others keep theirs (10_state.md R56). -/
theorem getReg_setReg (s : State) (r q : Reg) (w : Word) :
    (s.setReg r w).getReg q = if q = r ∧ r ≠ 0 then trunc s.cfg w else s.getReg q := by
  simp only [State.getReg, State.setReg, Base.getReg, Base.setReg]
  by_cases hr : r = 0
  · simp [hr]
  · by_cases hq : q = r
    · subst hq
      simp [hr]
    · have hne : (r : ℕ) ≠ q := fun e => hq (Fin.ext e.symm)
      simp [hr, hq, hne]

/-- The trap registers of a mode, after those of a mode are written. -/
theorem trapRegs_setTrapRegs (b : Base) (p q : TrapMode) (t : TrapRegs) :
    (b.setTrapRegs p t).trapRegs q = if q = p then t else b.trapRegs q := by
  cases p <;> cases q <;> rfl

theorem csrAt_csrAddress (r : DebugCsr) : csrAt (csrAddress r) = some r := by cases r <;> rfl

end Sys2Proof.Machine
end

