-- ==== Sys2Proof/Tests/Slice0.lean ====
section
/-! SUPPORT. Tests: the well-formedness smoke test, words written out from 30_encoding.md R99, single steps with results
taken from 95_test_vectors.md, and a state and operands for the hypotheses of every statement. -/

namespace Sys2Proof.Tests

open Sys2Proof Sys2Proof.Machine Sys2Proof.Claims

/-! ### Well-formedness: each check refuses an ill-formed term -/

theorem test_wf_csrrw : (Instr.csrrw 1 0x300 2).wellFormed = false ∧ (Instr.csrrw 1 0x7b0 2).wellFormed = true := by decide
theorem test_wf_csrrs : (Instr.csrrs 1 0x7af 2).wellFormed = false ∧ (Instr.csrrs 1 0x7b1 2).wellFormed = true := by decide
theorem test_wf_csrrc : (Instr.csrrc 1 0x7b4 2).wellFormed = false ∧ (Instr.csrrc 1 0x7b2 2).wellFormed = true := by decide
theorem test_wf_csrrwi : (Instr.csrrwi 1 0 2).wellFormed = false ∧ (Instr.csrrwi 1 0x7b3 2).wellFormed = true := by decide
theorem test_wf_csrrsi : (Instr.csrrsi 1 0xfff 2).wellFormed = false ∧ (Instr.csrrsi 1 0x7b0 2).wellFormed = true := by decide
theorem test_wf_csrrci : (Instr.csrrci 1 0x7ff 2).wellFormed = false ∧ (Instr.csrrci 1 0x7b3 2).wellFormed = true := by decide

/-! ### Decoding: every constructor from a word written out bit by bit from R99 (encodings of 95_test_vectors.md 2.3) -/

theorem test_decode_csrrw : decodeTableWord 32 0b011110110010_01010_001_01010_1110011 = some (.csrrw 10 0x7b2 10) := by decide
theorem test_decode_csrrs : decodeTableWord 32 0b011110110000_00000_010_00101_1110011 = some (.csrrs 5 0x7b0 0) := by decide
theorem test_decode_csrrc : decodeTableWord 32 0b011110110000_00110_011_00000_1110011 = some (.csrrc 0 0x7b0 6) := by decide
theorem test_decode_csrrwi : decodeTableWord 32 0b011110110001_00110_101_00011_1110011 = some (.csrrwi 3 0x7b1 6) := by decide
theorem test_decode_csrrsi : decodeTableWord 32 0b011110110000_10000_110_00000_1110011 = some (.csrrsi 0 0x7b0 16) := by decide
theorem test_decode_csrrci : decodeTableWord 32 0b011110110000_00011_111_00100_1110011 = some (.csrrci 4 0x7b0 3) := by decide
theorem test_decode_ebreak : decodeTableWord 32 0b000000000001_00000_000_00000_1110011 = some .ebreak := by decide
theorem test_decode_cEbreak : decodeTableWord 16 0b1001_00000_00000_10 = some .cEbreak := by decide
theorem test_decode_dret : decodeTableWord 32 0b011110110010_00000_000_00000_1110011 = some .dret := by decide

/-- Encodings beside those of R99 are refused, each by its name: funct3 4, `ecall`, a jump, another 16-bit instruction, a
longer instruction, too few bytes. -/
theorem test_decode_refuses :
    decode [0x73, 0x40, 0x00, 0x7b] = .error .funct3Four ∧
    decode [0x73, 0x00, 0x00, 0x00] = .error .otherSystem ∧
    decode [0x6f, 0x00, 0x00, 0x00] = .error .otherOpcode ∧
    decode [0x01, 0x00] = .error .otherCompressed ∧
    decode [0x1f, 0x00, 0x00, 0x00] = .error .otherLength ∧
    decode [0x73, 0x00] = .error .truncated := by decide

theorem test_encode_swap : encode (.csrrw 10 0x7b2 10) = [0x73, 0x15, 0x25, 0x7b] := by decide

/-! ### States -/

/-- A field of the next state. -/
def after {α : Type} (o : Host.Outcome State Fault Refusal) (f : State → α) : Option α :=
  match o with
  | .next t => some (f t)
  | .fault _ => none
  | .refused _ => none

/-- The state before each row of 95_test_vectors.md 2.3: halted by a halt request from M-mode. -/
def halted : State :=
  { State.reset with
    debugMode := true
    dcsr := { State.reset.dcsr with cause := 3 }
    dpc := 0x80000100
    dscratch0 := 0x11111111
    dscratch1 := 0x22222222
    timeAtEntry := some 0 }

/-- The same on a hart of another configuration. -/
def haltedOn (c : Config) : State := { halted with cfg := c }

/-- Running at an address, the bytes of an instruction there. -/
def runningAt (pc : Word) (bytes : List Byte) : State :=
  { State.reset with base := { State.reset.base with pc := pc, mem := Memory.writeRun [] (2 ^ 32) pc.toNat bytes } }

/-- Running in a mode, on a hart that has every mode. -/
def runningIn (m : Bool × BitVec 2) (d : Dcsr) (i : Instr) : State :=
  { runningAt 0x80000010 (encode i) with
    cfg := { Config.standard with hasH := true, ialign := .i16 }
    dcsr := d
    base := { (runningAt 0x80000010 (encode i)).base with virt := m.1, priv := m.2 } }

def ebreakM : Dcsr := { State.reset.dcsr with ebreakm := true }
def stepping : Dcsr := { State.reset.dcsr with step := true }

/-! ### One step of each instruction (95_test_vectors.md 2.3 to 2.6) -/

theorem test_csrrw_swaps :
    after (exec (.csrrw 10 0x7b2 10) (halted.setReg 10 0xdeadbeef)) (fun t => (t.getReg 10, t.dscratch0)) =
      some (0x11111111, 0xdeadbeef) := by decide
theorem test_csrrw_clears_low_bits :
    after (exec (.csrrw 6 0x7b1 5) (halted.setReg 5 0xffffffff)) (fun t => (t.getReg 6, t.dpc)) =
      some (0x80000100, 0xfffffffc) := by decide
theorem test_csrrs_reads :
    after (exec (.csrrs 5 0x7b0 0) halted) (fun t => (t.getReg 5, t.dcsrBits)) = some (0x400000c3, 0x400000c3) := by decide
theorem test_csrrs_sets :
    after (exec (.csrrs 0 0x7b0 6) (halted.setReg 6 0x8004)) (fun t => (t.getReg 0, t.dcsrBits)) =
      some (0, 0x400080c7) := by decide
theorem test_csrrc_keeps_cause :
    after (exec (.csrrc 0 0x7b0 6) (halted.setReg 6 0x1c0)) (fun t => t.dcsrBits) = some 0x400000c3 := by decide
theorem test_csrrc_clears_step :
    after (exec (.csrrc 0 0x7b0 7) ({ halted with dcsr := { stepping with cause := 4 } }.setReg 7 4))
      (fun t => t.dcsrBits) = some 0x40000103 := by decide
theorem test_csrrwi_aligns :
    after (exec (.csrrwi 3 0x7b1 6) halted) (fun t => (t.getReg 3, t.dpc)) = some (0x80000100, 4) := by decide
theorem test_csrrwi_unsupported_mode :
    after (exec (.csrrwi 0 0x7b0 0) (haltedOn { Config.standard with hasU := false })) (fun t => t.dcsrBits) =
      some 0x400000c3 := by decide
theorem test_csrrsi_zero_writes_nothing :
    after (exec (.csrrsi 5 0x7b1 0) halted) (fun t => (t.getReg 5, t.dpc)) = some (0x80000100, 0x80000100) := by decide
theorem test_csrrsi_tied_bit :
    after (exec (.csrrsi 0 0x7b0 16) (haltedOn { Config.standard with mprvenImpl := .hardwired0 }))
      (fun t => t.dcsrBits) = some 0x400000c3 := by decide
theorem test_csrrci_prv :
    after (exec (.csrrci 4 0x7b0 3) halted) (fun t => (t.getReg 4, t.dcsrBits)) = some (0x400000c3, 0x400000c0) := by decide
theorem test_csrrci_dpc :
    after (exec (.csrrci 0 0x7b1 2) { haltedOn { Config.standard with ialign := .i16 } with dpc := 0x80000106 })
      (fun t => t.dpc) = some 0x80000104 := by decide
/-- E1's entry: `dcsr` reads 0x40008043 after an `ebreak` in M-mode with `ebreakm` set. -/
theorem test_ebreak_enters :
    after (exec .ebreak { runningAt 0x80000010 [] with dcsr := ebreakM })
      (fun t => (t.debugMode, t.dcsrBits, t.dpc)) = some (true, 0x40008043, 0x80000010) := by decide
/-- Cross case of 2.4: in M-mode `ebreaks` and `ebreaku` do not count. -/
theorem test_ebreak_other_bits :
    after (exec .ebreak { runningAt 0x80000010 [] with dcsr := { State.reset.dcsr with ebreaks := true, ebreaku := true } })
      (fun t => (t.debugMode, t.dcsr.cause)) = some (false, 0) := by decide
/-- 2.4: `c.ebreak` at 0x00010002 in U-mode with `ebreaku` set. -/
theorem test_cEbreak_enters :
    after (exec .cEbreak (runningIn (false, 0) { State.reset.dcsr with ebreaku := true } .cEbreak))
      (fun t => (t.debugMode, t.dcsr.cause, t.dcsr.prv, t.dpc)) = some (true, 1, 0, 0x80000010) := by decide
theorem test_cEbreak_in_debug_mode :
    after (exec .cEbreak { haltedOn { Config.standard with ialign := .i16 } with progbuf := some [0x73] })
      (fun t => (t.debugMode, t.dpc, t.dcsrBits, t.progbuf)) = some (true, 0x80000100, 0x400000c3, none) := by decide
/-- 42_dret.md R140's example, in U-mode. -/
theorem test_dret_resumes :
    after (exec .dret { haltedOn { Config.standard with hasDret := true } with dcsr := { halted.dcsr with prv := 0 } })
      (fun t => (t.debugMode, t.base.pc, t.base.priv, t.dcsr.cause)) = some (false, 0x80000100, 0, 3) := by decide
theorem test_dret_absent :
    after (exec .dret { halted with progbuf := some [0x73] }) (fun t => (t.debugMode, t.dpc, t.progbuf)) =
      some (true, 0x80000100, none) := by decide

/-! ### Reading and writing `dcsr`, priorities, steps (95_test_vectors.md 2.1, 2.2, 2.5, 2.7) -/

theorem test_pack_virtual :
    { halted with dcsr := { halted.dcsr with ebreakvs := true, ebreakvu := true, v := true, prv := 1 } }.readCsr .dcsr =
      0x400300e1 := by decide
theorem test_write_all_ones : (halted.writeCsr .dcsr 0xffffffff).dcsrBits = 0x4000bed7 := by decide
theorem test_write_all_ones_virtual :
    ((haltedOn { Config.standard with hasH := true }).writeCsr .dcsr 0xffffffff).dcsrBits = 0x4003bed7 := by decide
theorem test_write_no_mode : (halted.writeCsr .dcsr 0x400000c2).dcsrBits = 0x400000c3 := by decide
theorem test_write_hardwired :
    ((haltedOn { Config.standard with
      hasS := false, hasU := false, stepieWritable := false, stopcountImpl := .hardwired1
      stoptimeImpl := .hardwired0, mprvenImpl := .hardwired0 }).writeCsr .dcsr 0xffffffff).dcsrBits = 0x400084c7 := by decide
theorem test_highest_default :
    highest Config.standard [.ebreak, .trigger, .haltreq, .group, .resethaltreq] = some .resethaltreq ∧
    highest Config.standard [.haltreq, .group] = some .group ∧
    highest Config.standard [.ebreak, .haltreq] = some .haltreq := by decide
theorem test_highest_other_orders :
    highest { Config.standard with causeOrder := 0 } [.group, .haltreq] = some .haltreq ∧
    highest { Config.standard with causeOrder := 14 } [.haltreq, .ebreak] = some .ebreak ∧
    highest { Config.standard with causeOrder := 14 } [.step, .haltreq] = some .step ∧
    highest { Config.standard with causeOrder := 2 } [.haltreq, .trigger] = some .trigger := by decide
/-- E6: a halt request at 0x80000100; the instruction there (an `ebreak`) has no effect. -/
theorem test_haltreq :
    after ({ runningAt 0x80000100 (encode .ebreak) with haltreq := true, dcsr := ebreakM }.hartStep {})
      (fun t => (t.dcsr.cause, t.dpc)) = some (3, 0x80000100) := by decide
/-- E9: `time` while halted and after resuming. -/
theorem test_time_frozen :
    { halted with dcsr := { halted.dcsr with stoptime := true }, timeAtEntry := some 1000, mtime := 1500 }.time = 1000 ∧
    { halted with timeAtEntry := some 1000, mtime := 1500 }.time = 1500 := by decide
/-- R191, the literal formula: `stoptime` set inside Debug Mode makes `time` step back to the entry's value. -/
theorem test_time_late_stoptime :
    ({ halted with timeAtEntry := some 1000, mtime := 1500 }.writeCsr .dcsr 0x400002c3).time = 1000 := by decide
/-- 2.9: halting out of reset. -/
theorem test_reset_halts :
    after ({ halted with resethaltArmed := true }.applyEvent .reset) (fun t => (t.dcsrBits, t.dpc)) =
      some (0x40000143, 0) := by decide
/-- 2.9: a reset clears what the debugger set. -/
theorem test_reset_clears :
    after ({ halted with dcsr := { ebreakM with step := true } }.applyEvent .reset)
      (fun t => (t.dcsrBits, t.debugMode)) = some (0x40000003, false) := by decide
theorem test_withFetchWord :
    decoded ((State.reset.withFetchWord 32 0x7b0022f3).fetch) = some (.csrrs 5 0x7b0 0) ∧
    decoded ((State.reset.withFetchWord 16 0x9002).fetch) = some .cEbreak := by decide

/-! ### For every statement with hypotheses: a state and operands that meet them, one for each clause -/

/-- A hart with `dret` and a single-step request set up, halted. -/
def haltedWithDret : State := haltedOn { Config.standard with hasDret := true }
/-- A hart whose `hartinfo` mentions no scratch register. -/
def noScratch : Config := { Config.standard with nscratch := 0 }
/-- A hart whose `hartinfo` mentions `dscratch0` only. -/
def oneScratch : Config := { Config.standard with nscratch := 1 }

/-- Halted, the Program Buffer executing. -/
def inProgbuf (c : Config) : State := { haltedOn c with progbuf := some [] }

theorem witness_CsrrwSwapsRegisterAndCsr :
    (halted.csrAccessible .dcsr = true ∧ (inProgbuf Config.standard).mayWrite .dcsr = true) ∧
    (halted.csrAccessible .dpc = true ∧ (inProgbuf Config.standard).mayWrite .dpc = true) ∧
    ((inProgbuf oneScratch).csrAccessible .dscratch0 = true ∧ (inProgbuf oneScratch).mayWrite .dscratch0 = true) ∧
    ((haltedOn noScratch).csrAccessible .dscratch1 = true ∧ (haltedOn noScratch).mayWrite .dscratch1 = true) := by decide
theorem witness_CsrrwiWritesImmediate : 
    (inProgbuf Config.standard).csrAccessible .dscratch1 = true ∧ (inProgbuf Config.standard).mayWrite .dscratch1 = true := by
  decide
/-- `x0` with a register `hartinfo` does not mention, and `x31` with one it does. -/
theorem witness_CsrrsSetsBits :
    ((inProgbuf noScratch).csrAccessible .dscratch0 = true ∧ ((0 : Reg) ≠ 0 → (inProgbuf noScratch).mayWrite .dscratch0 = true)) ∧
    ((inProgbuf Config.standard).csrAccessible .dcsr = true ∧ ((31 : Reg) ≠ 0 → (inProgbuf Config.standard).mayWrite .dcsr = true)) := by decide
theorem witness_CsrrcClearsBits :
    ((inProgbuf oneScratch).csrAccessible .dscratch1 = true ∧ ((0 : Reg) ≠ 0 → (inProgbuf oneScratch).mayWrite .dscratch1 = true)) ∧
    ((inProgbuf Config.standard).csrAccessible .dpc = true ∧ ((1 : Reg) ≠ 0 → (inProgbuf Config.standard).mayWrite .dpc = true)) := by decide
theorem witness_CsrrsiSetsImmediateBits :
    ((inProgbuf noScratch).csrAccessible .dscratch1 = true ∧ ((0 : Uimm) ≠ 0 → (inProgbuf noScratch).mayWrite .dscratch1 = true)) ∧
    ((inProgbuf Config.standard).csrAccessible .dcsr = true ∧ ((1 : Uimm) ≠ 0 → (inProgbuf Config.standard).mayWrite .dcsr = true)) := by decide
theorem witness_CsrrciClearsImmediateBits :
    ((inProgbuf noScratch).csrAccessible .dscratch0 = true ∧ ((0 : Uimm) ≠ 0 → (inProgbuf noScratch).mayWrite .dscratch0 = true)) ∧
    ((inProgbuf Config.standard).csrAccessible .dscratch0 = true ∧ ((31 : Uimm) ≠ 0 → (inProgbuf Config.standard).mayWrite .dscratch0 = true)) := by decide
theorem witness_FailedCsrAccessRaisesIllegalInstruction :
    .csrrs 5 (csrAddress .dcsr) 0 ∈ csrForms 5 (csrAddress .dcsr) 0 0 ∧ AccessFails State.reset .dcsr ∧
    AccessFails (haltedOn { Config.standard with hasDscratch0 := false }) .dscratch0 ∧
    AccessFails (haltedOn { Config.standard with hasDscratch1 := false }) .dscratch1 ∧
    ¬ AccessFails (haltedOn { Config.standard with hasDscratch1 := false }) .dscratch0 ∧ ¬ AccessFails halted .dcsr := by
  unfold AccessFails
  and_intros <;> decide
theorem witness_UnmentionedScratchWriteIsRefused :
    ((inProgbuf noScratch).csrAccessible .dscratch0 = true ∧ noScratch.nscratch.val = 0) ∧
    ((inProgbuf oneScratch).csrAccessible .dscratch1 = true ∧ oneScratch.nscratch.val < 2) ∧
    (inProgbuf noScratch).progbuf.isSome = true ∧ (inProgbuf oneScratch).progbuf.isSome = true := by decide
theorem witness_BaseHartInstructionsLeaveDebugLayer :
    (csrAt 0x7af = none ∧ csrAt 0x7b4 = none ∧ .csrrw 1 0x7b4 2 ∈ csrForms 1 0x7b4 2 0) ∧
    State.reset.cfg.ialign = .i32 := by decide

/-- A sound state in Debug Mode. -/
theorem halted_sound : halted.Sound where
  dcsr := { ebreakvs := by decide, ebreakvu := by decide, ebreaks := by decide, ebreaku := by decide
            stepie := by decide, stopcount := by decide, stoptime := by decide, mprven := by decide
            mode := by decide, cause := by decide }
  base := { x0 := by decide, x := by decide, pc := by decide, mode := by decide
            trapM := by decide, trapS := by decide, trapVS := by decide, mem := by decide, memTop := by decide }
  dpc := by decide
  scratch0 := by decide
  scratch1 := by decide
  pc := by decide
  cause := by decide
  entered := by decide
  time := fun t ht => by cases ht; decide
  progbuf := by decide
  trigHalt := by decide
  trigNone := by decide

theorem witness_SettingNoBitsStoresTheSame :
    halted.Sound ∧ halted.cfg.layout = DcsrLayout.standard ∧ halted.getReg 7 = 0 ∧
    (∀ r ∈ [DebugCsr.dcsr, .dpc, .dscratch0, .dscratch1],
      halted.csrAccessible r = true ∧ mentioned halted.cfg r = true) ∧
    dpcLegalize halted.cfg halted.dpc = halted.dpc := ⟨halted_sound, by decide⟩
theorem witness_DcsrReadsItsFields : halted.cfg.layout = DcsrLayout.standard := by decide
theorem witness_ReadOnlyDcsrBitsSurviveWrites : State.reset.cfg.layout = DcsrLayout.standard := by decide
theorem witness_NmipFollowsTheInput : State.reset.cfg.layout = DcsrLayout.standard := by decide
/-- The layout of R29, and another legal one: `debugver` and `prv` change places. -/
theorem witness_DcsrFieldsSurvivePacking :
    DcsrLayout.standard.wf = true ∧ { DcsrLayout.standard with debugver := 18, ebreakvs := 31 }.wf = true := by decide
/-- A writable bit, and one hardwired to each constant. -/
theorem witness_DcsrWriteStoresItsFields :
    halted.cfg.layout = DcsrLayout.standard ∧ halted.cfg.prvPolicy = .toM ∧ halted.cfg.stopcountImpl = .writable ∧
    { halted.cfg with stoptimeImpl := .hardwired0, mprvenImpl := .hardwired1 }.layout = DcsrLayout.standard := by decide
/-- A mode the hart has and one it does not have, written; and the saved mode over itself. -/
theorem witness_WrittenModeIsSupported :
    halted.cfg.prvPolicy = .toM ∧ supported halted.cfg (writtenMode halted.cfg 0) = true ∧
    supported halted.cfg (writtenMode halted.cfg 0x22) = false ∧ writtenMode halted.cfg 3 = halted.savedMode := by decide
theorem witness_DpcWriteIsLegalized :
    Fits Config.standard 0xffffffff ∧ Config.standard.ialign = .i32 ∧ Config.standard.dpcPolicy = .clearLow ∧
    (Config.validAddress Config.standard 0 = true ∨ Config.validAddress Config.standard 0 = false) := by
  refine ⟨by decide, by decide, by decide, ?_⟩
  cases Config.validAddress Config.standard 0 <;> simp

/-- All five modes, each with its own bit set and with only its own bit clear. -/
theorem witness_EbreakIsRoutedByItsModesBit :
    EbreakOf (runningIn (false, 3) ebreakM .ebreak) .ebreak ∧ EbreakOf (runningIn (false, 3) ebreakM .cEbreak) .cEbreak ∧
    (runningIn (false, 3) ebreakM .ebreak).debugMode = false ∧
    GovernedBy (runningIn (false, 3) { State.reset.dcsr with ebreakm := true } .ebreak) true ∧
    GovernedBy (runningIn (false, 1) { State.reset.dcsr with ebreaks := true } .ebreak) true ∧
    GovernedBy (runningIn (false, 0) { State.reset.dcsr with ebreaku := true } .ebreak) true ∧
    GovernedBy (runningIn (true, 1) { State.reset.dcsr with ebreakvs := true } .ebreak) true ∧
    GovernedBy (runningIn (true, 0) { State.reset.dcsr with ebreakvu := true } .ebreak) true ∧
    GovernedBy (runningIn (false, 3) { State.reset.dcsr with ebreaks := true, ebreaku := true } .ebreak) false := by
  unfold EbreakOf GovernedBy
  and_intros <;> decide
theorem witness_EbreakRecordsItsOwnAddress :
    ∃ t, exec .ebreak (runningIn (false, 3) ebreakM .ebreak) = .next t ∧ t.debugMode = true := ⟨_, rfl, rfl⟩
theorem witness_GovernedEbreakEntersDebugMode :
    EbreakOf (runningIn (true, 0) { ebreakM with ebreakvu := true, stopcount := true } .cEbreak) .cEbreak ∧
    GovernedBy (runningIn (true, 0) { ebreakM with ebreakvu := true, stopcount := true } .cEbreak) true := by
  unfold EbreakOf GovernedBy
  and_intros <;> decide
theorem witness_UngovernedEbreakTakesBreakpoint :
    EbreakOf (runningIn (true, 1) ebreakM .ebreak) .ebreak ∧ GovernedBy (runningIn (true, 1) ebreakM .ebreak) false := by
  unfold EbreakOf GovernedBy
  and_intros <;> decide
theorem witness_EbreakInDebugModeEndsProgbuf : EbreakOf halted .ebreak ∧ halted.debugMode = true := by
  unfold EbreakOf
  decide

/-- Halted by the `ebreak` at 0x80000010 that `dpc` still names. -/
def haltedAtEbreak : State :=
  { runningAt 0x80000010 (encode .ebreak) with
    debugMode := true, dcsr := { ebreakM with cause := 1 }, dpc := 0x80000010, timeAtEntry := some 0 }

theorem witness_ResumingAtEbreakReenters :
    haltedAtEbreak.debugMode = true ∧ EbreakOf haltedAtEbreak .ebreak ∧
    decoded haltedAtEbreak.resume.fetch = some .ebreak ∧ GovernedBy haltedAtEbreak.resume true ∧
    haltedAtEbreak.resume.asyncReasons = [] ∧ haltedAtEbreak.resume.triggerPresent {} = false ∧
    haltedAtEbreak.pendingJump = none := by
  unfold EbreakOf GovernedBy
  and_intros <;> decide
theorem witness_DretResumes : haltedWithDret.debugMode = true ∧ haltedWithDret.cfg.hasDret = true := by decide
/-- On a hart without `dret`, and on one with it. -/
theorem witness_ResumeReqEqualsDret :
    (halted.debugMode = true ∧ halted.cfg.hasDret = false) ∧
    haltedWithDret.debugMode = true ∧ haltedWithDret.cfg.hasDret = true := by decide
/-- 60_exceptions.md R180, R182 on a hart without `dret`, resumed into U-mode. -/
theorem test_resumeReq :
    after (State.applyEvent { halted with dcsr := { halted.dcsr with prv := 0 }, base := { halted.base with mprv := true } }
      .resumeReq) (fun t => (t.debugMode, t.base.pc, t.base.priv, t.base.mprv)) =
      some (false, 0x80000100, 0, false) := by decide
theorem witness_DretElsewhereIsIllegal :
    State.reset.debugMode = false ∧ (halted.debugMode = true ∧ halted.cfg.hasDret = false) ∧
    { State.reset with cfg := { Config.standard with hasDret := true } }.debugMode = false := by decide
/-- By `ResumeReq`, by `dret` in the Program Buffer, and by a reset (what code of its own a halted hart has is open). -/
theorem witness_DebugModeIsLeftOnlyByResuming :
    halted.debugMode = true ∧ haltedWithDret.debugMode = true ∧
    (∃ t, step { halted with env := [.resumeReq] } = .next t ∧ t.debugMode = false) ∧
    (∃ t, step { haltedWithDret with progbuf := some (encode .dret) } = .next t ∧ t.debugMode = false) ∧
    (∃ t, step { halted with env := [.reset] } = .next t ∧ t.debugMode = false) :=
  ⟨rfl, rfl, ⟨_, rfl, rfl⟩, ⟨_, rfl, rfl⟩, ⟨_, rfl, rfl⟩⟩
/-- Halted with a halt request present; an exhausted Program Buffer, on a hart where it clobbers `dpc` and on one where not. -/
theorem witness_HaltRequestHeldWhileHaltedHaltsAgain :
    (halted.progbuf = none ∧ halted.cfg.debugExec = .progbufOnly) ∧
    ((inProgbuf Config.standard).debugMode = true ∧ (inProgbuf Config.standard).progbuf = some [] ∧
     Config.standard.progbufClobbers = false ∧
     (inProgbuf { Config.standard with progbufClobbers := true }).progbuf = some []) ∧
    { halted with dcsr := { halted.dcsr with stopcount := true } }.dcsr.stopcount = true ∧
    { halted with haltreq := true }.debugMode = true ∧ { halted with haltreq := true }.haltreq = true ∧
    halted.resethaltPresent = false ∧ halted.groupPresent = false ∧ halted.pendingJump = none ∧
    halted.cfg.causeOrder = 1 := by decide

/-- The five reasons that are not step, each the highest present at a boundary; ebreak above a halt request. -/
theorem witness_PresentReasonEntersDebugMode :
    highest Config.standard ({ runningAt 0 [] with haltreq := true }.reasonsBefore {} (decoded [])) = some .haltreq ∧
    highest Config.standard ({ runningAt 0 [] with resethaltPresent := true }.reasonsBefore {} none) =
      some .resethaltreq ∧
    highest Config.standard
      ({ runningAt 0 [] with
        cfg := { Config.standard with hasHaltGroups := true }, group := true }.reasonsBefore {} none) = some .group ∧
    highest Config.standard
      ({ runningAt 0 [] with cfg := { Config.standard with hasTriggers := true } }.reasonsBefore { trigBefore := true } none) =
      some .trigger ∧
    highest { Config.standard with causeOrder := 14 }
      ({ runningAt 0 [] with haltreq := true, dcsr := ebreakM }.reasonsBefore {} (some .ebreak)) = some .ebreak ∧
    decoded { runningAt 0 [] with haltreq := true }.takeJump.fetch = none ∧ (runningAt 0 []).debugMode = false := by decide
/-- E6 in row 15 of R163: the `ebreak` outranks the halt request. -/
theorem test_ebreak_outranks_haltreq :
    after ({ runningAt 0x80000100 (encode .ebreak) with
        cfg := { Config.standard with causeOrder := 14 }, haltreq := true, dcsr := ebreakM }.hartStep {})
      (fun t => (t.dcsr.cause, t.dpc, t.haltreq)) = some (1, 0x80000100, true) := by decide

/-- Stepping at 0x80000100, where no instruction of this spec stands. -/
def steppingAt (bytes : List Byte) : State := { runningAt 0x80000100 bytes with dcsr := stepping }

theorem quiet_steppingAt : ∀ bytes ∈ [[], encode .ebreak], ∀ b : Bool, Quiet (steppingAt bytes) { lateHaltreq := b } := by
  unfold Quiet
  decide
/-- An interrupt is ready, and the hart steps with `stepie` set; `b`: the handler's first instruction executes too. -/
def interrupted (b : Bool) (d : Dcsr) : State :=
  { runningAt 0x80000100 [] with cfg := { Config.standard with stepRunsHandler := b }, irqReady := true, dcsr := d }

theorem interruptNext_interrupted :
    ∀ b late : Bool, ∀ d ∈ [State.reset.dcsr, { stepping with stepie := true }],
      InterruptNext (interrupted b d) { lateHaltreq := late } := by
  unfold InterruptNext
  decide

/-- Outside Debug Mode, in a mode the hart has, every instruction of this spec completes. -/
theorem exec_running {s : State} (i : Instr) (hd : s.debugMode = false) (hm : supported s.cfg s.mode = true) :
    ∃ u, exec i s = .next u := by
  have csr : ∀ {i rd csr op w writes}, ∃ u, csrInstr i rd csr op w writes s = .next u := by
    intro i rd csr op w writes
    unfold csrInstr
    split
    · exact ⟨_, rfl⟩
    · simp only [State.csrAccessible, hd, Bool.false_and]
      exact ⟨_, rfl⟩
  have eb : ∃ u, ebreakEffect s = .next u := by
    have hg : s.ebreakToDebug ≠ none := by
      intro h
      unfold State.ebreakToDebug governingBit at h
      unfold supported at hm
      split at hm <;> simp_all
    unfold ebreakEffect
    rw [hd]
    cases hb : s.ebreakToDebug with
    | none => exact absurd hb hg
    | some b => cases b <;> exact ⟨_, rfl⟩
  cases i with
  | csrrw _ _ _ => exact csr
  | csrrs _ _ _ => exact csr
  | csrrc _ _ _ => exact csr
  | csrrwi _ _ _ => exact csr
  | csrrsi _ _ _ => exact csr
  | csrrci _ _ _ => exact csr
  | ebreak => exact eb
  | cEbreak =>
    simp only [exec, execCEbreak]
    split
    · exact eb
    · exact ⟨_, rfl⟩
  | dret =>
    simp only [exec, execDret, hd, Bool.false_and]
    exact ⟨_, rfl⟩

/-- The handler's first instruction completes, wherever the handler is. -/
theorem interrupted_handler (d : Dcsr) : ∃ u, (interrupted true d).takeInterrupt.executeAtPc = .next u := by
  unfold State.executeAtPc
  split
  · refine exec_running _ rfl ?_
    show supported _ (supportedOrM _ _) = true
    unfold supportedOrM
    split
    · assumption
    · rfl
  · exact ⟨_, rfl⟩

/-- An instruction, with and without a late halt request; an interrupt, its trap being the step or not. -/
theorem witness_StepExecutesOneInstruction :
    ((steppingAt []).debugMode = false ∧ (steppingAt []).dcsr.step = true ∧
     (∀ b : Bool, Quiet (steppingAt []) { lateHaltreq := b }) ∧
     (steppingAt []).ebreakPresent (decoded (steppingAt []).fetch) = false ∧
     lateReasons Config.standard {} = [] ∧ lateReasons Config.standard { lateHaltreq := true } = [.haltreq] ∧
     Config.standard.causeOrder = 1 ∧
     ∃ u, (steppingAt []).executeAtPc = .next u ∧ u.debugMode = false) ∧
    ∀ b : Bool, (interrupted b { stepping with stepie := true }).debugMode = false ∧
      InterruptNext (interrupted b { stepping with stepie := true }) {} ∧
      ∃ u, (interrupted true { stepping with stepie := true }).takeInterrupt.executeAtPc = .next u :=
  ⟨⟨rfl, rfl, quiet_steppingAt _ (by decide), by decide, rfl, rfl, rfl, _, rfl, rfl⟩,
   fun b => ⟨rfl, interruptNext_interrupted b false _ (by decide), interrupted_handler _⟩⟩
/-- A halt request that arrives while the stepped instruction executes is recorded, in the default order (R171). -/
theorem test_late_haltreq :
    after ((steppingAt (encode .ebreak)).hartStep { lateHaltreq := true }) (fun t => (t.debugMode, t.dcsr.cause)) =
      some (true, 3) := by decide
/-- With the governing bit 0 and with it 1. -/
theorem witness_SteppedEbreak :
    (steppingAt (encode .ebreak)).debugMode = false ∧ (steppingAt (encode .ebreak)).dcsr.step = true ∧
    Quiet (steppingAt (encode .ebreak)) {} ∧ decoded (steppingAt (encode .ebreak)).fetch = some .ebreak ∧
    EbreakOf (steppingAt (encode .ebreak)) .ebreak ∧ GovernedBy (steppingAt (encode .ebreak)) false ∧
    Quiet { steppingAt (encode .ebreak) with dcsr := { stepping with ebreakm := true } } {} ∧
    GovernedBy { steppingAt (encode .ebreak) with dcsr := { stepping with ebreakm := true } } true := by
  unfold Quiet EbreakOf GovernedBy
  and_intros <;> decide
theorem witness_StepieZeroMasksInterrupts :
    (steppingAt []).debugMode = false ∧ (steppingAt []).dcsr.step = true ∧ (steppingAt []).dcsr.stepie = false := by decide
/-- A step that goes on running, and one that enters Debug Mode. -/
theorem witness_DebugRegistersAreStableWhileRunning :
    (State.reset.debugMode = false ∧ ¬ ResetNext State.reset ∧ ∃ t, step State.reset = .next t ∧ t.debugMode = false) ∧
    ∃ t, step { State.reset with haltreq := true } = .next t ∧ t.debugMode = true :=
  ⟨⟨rfl, by unfold ResetNext; decide, _, rfl, rfl⟩, _, rfl, rfl⟩
theorem witness_CauseChangesOnlyOnEntry :
    ¬ ResetNext { State.reset with haltreq := true } ∧
    ∃ t, step { State.reset with haltreq := true } = .next t ∧ t.dcsr.cause ≠ State.reset.dcsr.cause :=
  ⟨by unfold ResetNext; decide, _, rfl, by decide⟩
theorem witness_DebugModeTakesNoInterrupt : halted.debugMode = true := by decide
theorem witness_StopcountFreezesCountersInDebugMode :
    { halted with dcsr := { halted.dcsr with stopcount := true } }.debugMode = true ∧
    (Instr.csrrs 5 0x7b0 0).wellFormed = true ∧ existsOn halted.cfg (.csrrs 5 0x7b0 0) = true ∧
    halted.cfg.multiHart = false ∧ halted.cfg.cycleStops = true ∧
    ∃ t, exec (.csrrs 5 0x7b0 0) { halted with dcsr := { halted.dcsr with stopcount := true } } = .next t :=
  ⟨rfl, by decide, by decide, rfl, rfl, _, rfl⟩
/-- Halted since time 1000, `stoptime` as given; `b`: a hart that draws a late `stoptime`. -/
def haltedSince1000 (b stoptime : Bool) (e : List Event) : State :=
  { haltedOn { Config.standard with lateStoptimeDrawn := b } with
    dcsr := { halted.dcsr with stoptime := stoptime }, timeAtEntry := some 1000, mtime := 1500, env := e }

/-- An entry, an advance and a resume; a halted hart with `stoptime` 0, 1 from before the entry and 1 set since, on a hart of
each kind; and a step of a stay in Debug Mode in which `stoptime` goes from 0 to 1. -/
theorem witness_StoptimeFreezesTimeWhileHalted :
    (State.reset.debugMode = false ∧
     ∃ u v, (State.reset.enterDebug .haltreq 0).applyEvent (.mtimeAdvance 500) = .next u ∧
       u.applyEvent .resumeReq = .next v) ∧
    (∀ b st : Bool, (haltedSince1000 b st []).debugMode = true ∧ (haltedSince1000 b st []).timeAtEntry = some 1000 ∧
      (haltedSince1000 b st []).dcsr.stoptime = st ∧ (haltedSince1000 b st []).stoptimeSetInDebug = false ∧
      1000 ≤ { haltedSince1000 b st [] with stoptimeSetInDebug := true }.mtime) ∧
    ∀ b : Bool, ∃ t, step (haltedSince1000 b false [.abstractWrite .dcsr 0x400002c3 none]) = .next t ∧
      ¬ ResetNext (haltedSince1000 b false [.abstractWrite .dcsr 0x400002c3 none]) ∧
      t.debugMode = true ∧ t.dcsr.stoptime = true :=
  ⟨⟨rfl, _, _, rfl, rfl⟩, by decide, fun b => by
    cases b <;> exact ⟨_, rfl, by unfold ResetNext; decide, rfl, rfl⟩⟩
theorem witness_ResetLeavesResetValues : halted.resethaltArmed = false := by decide
theorem witness_ArmedResetHaltsTheHart :
    { halted with resethaltArmed := true }.resethaltArmed = true ∧ halted.cfg.resetHaltByOrder = false := by decide
/-- An order that begins with resethaltreq, and one that does not, with no group request and no triggers. -/
theorem witness_ArmedResetHaltsByPriority :
    { halted with resethaltArmed := true }.resethaltArmed = true ∧
    { Config.standard with resetHaltByOrder := true }.resetHaltByOrder = true ∧ Config.standard.causeOrder.val ≤ 4 ∧
    (haltedOn { Config.standard with resetHaltByOrder := true, causeOrder := 14 }).groupPresent = false ∧
    Config.standard.hasTriggers = false := by decide
/-- Out of reset with a trigger at the reset `pc`: in row 10 of R163 it outranks resethaltreq, in row 2 it does not. -/
theorem test_reset_by_order :
    after ({ runningAt 0 [] with
        cfg := { Config.standard with causeOrder := 9, hasTriggers := true }, resethaltPresent := true }.hartStep
          { trigBefore := true }) (fun t => (t.debugMode, t.dcsr.cause, t.dpc)) = some (true, 2, 0) ∧
    after ({ runningAt 0 [] with
        cfg := { Config.standard with hasTriggers := true }, resethaltPresent := true }.hartStep
          { trigBefore := true }) (fun t => (t.debugMode, t.dcsr.cause, t.dpc)) = some (true, 5, 0) := by decide
theorem witness_DcsrReadsAfterReset :
    Config.standard.layout = DcsrLayout.standard ∧ Config.standard.debugver = .v1_0 ∧
    presetBit Config.standard.stopcountImpl Config.standard.stopcountPreset = false ∧
    presetBit Config.standard.stoptimeImpl Config.standard.stoptimePreset = false ∧
    presetBit Config.standard.mprvenImpl Config.standard.mprvenPreset = false ∧
    { halted with resethaltArmed := true }.cfg = Config.standard ∧ halted.nmiPending = false ∧
    Config.standard.resetHaltByOrder = false := by decide
/-- A request, an NMI and a reset while the Program Buffer executes; a command that waits for it, and one that need not; no
event. -/
theorem witness_EachRequestSetsItsOwnFlag :
    (∀ e ∈ [Event.haltReq, .haltGroup true, .nmi true, .reset],
      Steps { halted with env := [e], progbuf := some [0x73] } ∧ e.waits = false) ∧
    (Steps { halted with env := [.resumeReq], progbuf := some [0x73] } ∧ Event.resumeReq.waits = true) ∧
    (Steps { halted with env := [.resumeReq] } ∧ halted.progbuf = none) ∧ Steps halted ∧ halted.env = [] := by
  unfold Steps
  decide
/-- Every register; a scratch register that `hartinfo` mentions, and one it does not. -/
theorem witness_AbstractReadReturnsTheRegister :
    (∀ r ∈ [DebugCsr.dcsr, .dpc, .dscratch0, .dscratch1], halted.csrAccessible r = true ∧ mentioned halted.cfg r = true) ∧
    (haltedOn noScratch).csrAccessible .dscratch0 = true ∧ mentioned noScratch .dscratch0 = false := by decide
/-- R125: with `postexec` the Program Buffer executes after the transfer. -/
theorem test_postexec :
    after (halted.applyEvent (.abstractWrite .dpc 0x80000200 (some (encode .ebreak))))
      (fun t => (t.dpc, t.progbuf, t.debugMode)) = some (0x80000200, some (encode .ebreak), true) := by decide
theorem witness_AbstractWriteStoresTheRegister :
    ∀ r ∈ [DebugCsr.dcsr, .dpc, .dscratch0, .dscratch1],
      halted.csrAccessible r = true ∧ mentioned halted.cfg r = true := by decide

/-- A running hart that supports both accesses to `dpc` while running. -/
def runningDpc : State :=
  { State.reset with cfg := { Config.standard with absDpcReadRunning := true, absDpcWriteRunning := true } }

theorem witness_RunningDpcReadReturnsRecentAddress :
    runningDpc.debugMode = false ∧ runningDpc.cfg.absDpcReadRunning = true := by decide
/-- While running, in Debug Mode, and a reset that leaves Debug Mode. -/
theorem witness_RecentAddressesAreKept :
    (∃ t, step State.reset = .next t ∧ State.reset.debugMode = false) ∧
    (∃ t, step halted = .next t ∧ halted.debugMode = true ∧ t.debugMode = true) ∧
    ∃ t, step { halted with env := [.reset] } = .next t ∧ ResetNext { halted with env := [.reset] } ∧
      t.debugMode = false := ⟨⟨_, rfl, rfl⟩, ⟨_, rfl, rfl, rfl⟩, _, rfl, rfl, rfl⟩
theorem witness_RunningDpcWriteMakesTheProgramJump :
    (runningDpc.debugMode = false ∧ runningDpc.cfg.absDpcWriteRunning = true) ∧
    (∃ t, { runningDpc with pendingJump := some (1, 8) }.hartStep {} = .next t ∧ t.debugMode = false) ∧
    (highest Config.standard
      ({ runningDpc with pendingJump := some (0, 8), haltreq := true }.takeJump.reasonsBefore {} none) = some .haltreq ∧
     decoded { runningDpc with pendingJump := some (0, 8), haltreq := true }.takeJump.fetch = none ∧
     ∃ t, { runningDpc with pendingJump := some (0, 8), haltreq := true }.hartStep {} = .next t) :=
  ⟨by decide, ⟨_, rfl, rfl⟩, by decide, by decide, _, rfl⟩
/-- Each `debugver`, an NMI pending and one gone; running; halted on a hart without a scratch register; the accesses to `dpc`
while running on a hart without them, and in Debug Mode. -/
theorem witness_RunsOutsideTheSpecAreRefused :
    ({ Config.standard with debugver := .none }.debugver = .none ∧
     { Config.standard with debugver := .custom }.debugver = .custom) ∧
    (Config.standard.debugver = .v1_0 ∧ { Config.standard with nmiDebugReliable := false }.nmiDebugReliable = false ∧
     { State.reset with nmiSeen := true }.nmiSeen = true ∧ { State.reset with nmiPending := true }.nmiPending = true) ∧
    State.reset.debugMode = false ∧
    ((haltedOn { Config.standard with hasDscratch1 := false }).debugMode = true ∧
     present { Config.standard with hasDscratch1 := false } .dscratch1 = false) ∧
    State.reset.cfg.absDpcReadRunning = false ∧ State.reset.cfg.absDpcWriteRunning = false ∧ halted.debugMode = true := by
  decide
/-- R126 through `step`: an abstract read of `dcsr` while running. -/
theorem test_abstract_while_running :
    step { State.reset with env := [.abstractRead .dcsr none] } = .refused .abstractWhileRunning := by rfl
theorem witness_DecodedWordsMatchTheOpcodeMap :
    decodeWord 0x7b0022f3 = .ok (.csrrs 5 0x7b0 0) ∧ decodeParcel 0x9002 = .ok .cEbreak := by decide
/-- An instruction, alone and with an event that names the step's inputs; and an interrupt. -/
theorem witness_RunningStepExecutesDecodedInstruction :
    (Steps (runningAt 0x80000100 (encode .ebreak)) ∧ (runningAt 0x80000100 (encode .ebreak)).env = [] ∧
     (runningAt 0x80000100 (encode .ebreak)).debugMode = false ∧ Quiet (runningAt 0x80000100 (encode .ebreak)) {} ∧
     Instr.ebreak.wellFormed = true ∧ decoded (runningAt 0x80000100 (encode .ebreak)).fetch = some .ebreak) ∧
    Steps { runningAt 0x80000100 [] with env := [.hart { trigAfter := true }] } ∧
    (Quiet (runningAt 0x80000100 []) { trigAfter := true } ∧
     ∃ u, (runningAt 0x80000100 []).executeAtPc = .next u ∧ u.debugMode = false) ∧
    InterruptNext (interrupted false State.reset.dcsr) {} ∧ (interrupted false State.reset.dcsr).dcsr.step = false := by
  refine ⟨?_, ?_, ⟨?_, _, rfl, rfl⟩, interruptNext_interrupted false false _ (by decide), rfl⟩ <;>
    simp only [Steps, Quiet] <;> decide
/-- A trigger that fires after an instruction is carried to the next, on a hart with triggers (R54). -/
theorem test_trigger_after :
    after ({ runningAt 0x80000100 (encode .ebreak) with
        cfg := { Config.standard with hasTriggers := true } }.hartStep { trigAfter := true })
      (fun t => (t.trigAfterPending, t.debugMode)) = some (true, false) := by decide
/-- The buffer goes on, and it ends on a hart where that clobbers `dpc`. -/
theorem witness_DebugStepExecutesDecodedInstruction :
    (Steps { halted with progbuf := some (encode (.csrrs 5 0x7b0 0) ++ encode .ebreak) } ∧ halted.env = [] ∧
     halted.debugMode = true ∧ (Instr.csrrs 5 0x7b0 0).wellFormed = true ∧
     ∃ u, exec (.csrrs 5 0x7b0 0) (halted.setProgbuf (some (encode .ebreak))) = .next u ∧ u.progbuf.isSome = true) ∧
    Steps { haltedOn { Config.standard with progbufClobbers := true } with progbuf := some (encode .ebreak) } ∧
    ∃ u, exec .ebreak ((haltedOn { Config.standard with progbufClobbers := true }).setProgbuf (some [])) = .next u ∧
      u.progbuf = none ∧
      ∃ t, step { haltedOn { Config.standard with progbufClobbers := true } with progbuf := some (encode .ebreak) } =
        .next t := by
  unfold Steps
  exact ⟨⟨by decide, rfl, rfl, by decide, _, rfl, rfl⟩, by decide, _, rfl, rfl, _, rfl⟩
theorem witness_StepKeepsSoundness :
    halted.Sound ∧ ∃ t, step { halted with env := [] } = .next t := ⟨halted_sound, _, rfl⟩
theorem witness_ParametersAreFixed : ∃ t, step State.reset = .next t := ⟨_, rfl⟩

end Sys2Proof.Tests
end

