-- ==== Sys2Proof/Proofs/Slice0/Parameters.lean ====
section
/-! Proof of `ParametersAreFixed` (00_scope.md R4): every operation that makes a next state keeps `cfg`, followed from the
updates of the state up through the instruction, the hart's step and the events to `step`. -/

namespace Sys2Proof.Machine

/-! ### The operations that choose between updates -/

@[simp] theorem State.baseInstr_cfg (s : State) (bytes : List Byte) (n : Option Nat) :
    (s.baseInstr bytes n).cfg = s.cfg := by
  rcases baseInstr_cases s bytes n with ⟨-, h⟩ | h <;> simp [h]

@[simp] theorem State.raise_cfg (s : State) (e : Exc) : (s.raise e).cfg = s.cfg := by
  rcases raise_cases s e with ⟨-, h⟩ | ⟨-, h⟩ <;> simp [h]

@[simp] theorem State.writeCsr_cfg (s : State) (r : DebugCsr) (w : Word) : (s.writeCsr r w).cfg = s.cfg := by
  cases r <;> rfl

@[simp] theorem State.startProgbuf_cfg (s : State) (p : Option (List Byte)) : (s.startProgbuf p).cfg = s.cfg := by
  cases p <;> rfl

@[simp] theorem State.freshScratch_cfg (s : State) : s.freshScratch.cfg = s.cfg := by
  rw [(freshScratch_eq s).1]

@[simp] theorem State.closeProgbuf_cfg (s : State) : s.closeProgbuf.cfg = s.cfg := by
  rcases closeProgbuf_cases s with h | ⟨-, -, h⟩ <;> rw [h]

@[simp] theorem State.afterInstr_cfg (s : State) (inputs : HartInputs) : (s.afterInstr inputs).cfg = s.cfg := by
  rcases afterInstr_cases s inputs with ⟨-, h⟩ | ⟨-, u, rfl, h | ⟨-, r, -, h⟩⟩ <;> simp [h]

@[simp] theorem State.resetCore_cfg (s : State) : s.resetCore.cfg = s.cfg := rfl

@[simp] theorem State.resetEvent_cfg (s : State) : s.resetEvent.cfg = s.cfg := by
  rcases resetEvent_cases s with h | ⟨-, -, h⟩ <;> simp [h]

/-! ### Instructions -/

theorem ExecShape.cfg_eq {s t : State} (h : ExecShape s t) : t.cfg = s.cfg := by
  cases h with
  | base bytes n => exact s.baseInstr_cfg bytes n
  | illegal instr => exact s.raise_cfg _
  | breakpoint => exact s.raise_cfg _
  | csrRead r rd => rfl
  | csrWrite r rd w => simp
  | enter => rfl
  | endProgbuf => rfl
  | resume => rfl

theorem exec_cfg {i : Instr} {s t : State} (h : exec i s = .next t) : t.cfg = s.cfg := (exec_shape h).cfg_eq

theorem executeAtPc_cfg {s t : State} (h : s.executeAtPc = .next t) : t.cfg = s.cfg := (executeAtPc_shape h).cfg_eq

theorem progbufInstr_cfg {s t : State} {bytes : List Byte} (h : s.progbufInstr bytes = .next t) : t.cfg = s.cfg := by
  rcases progbufInstr_next h with ⟨i, rest, -, hi⟩ | ⟨n, rfl⟩ | rfl
  · exact (exec_cfg hi).trans (s.setProgbuf_cfg _)
  · simp
  · simp

/-! ### The hart's step -/

theorem runStep_cfg {s t : State} {inputs : HartInputs} (h : s.runStep inputs = .next t) : t.cfg = s.cfg := by
  rcases runStep_next h with ⟨r, -, rfl⟩ | ⟨u, hu, rfl⟩ | ⟨-, -, rfl | ⟨u, hu, rfl⟩⟩
  · simp
  · simp [executeAtPc_cfg hu]
  · simp
  · simp [executeAtPc_cfg hu]

theorem haltedStep_cfg {s t : State} (h : s.haltedStep = .next t) : t.cfg = s.cfg := by
  rcases haltedStep_next h with rfl | ⟨-, ⟨i, -, hi⟩ | ⟨n, rfl⟩⟩
  · rfl
  · exact (exec_cfg hi).trans s.freshScratch_cfg
  · simp

theorem debugStep_cfg {s t : State} (h : s.debugStep = .next t) : t.cfg = s.cfg := by
  rcases debugStep_next h with ⟨-, hh⟩ | ⟨-, rfl⟩ | ⟨bytes, u, -, hu, rfl⟩
  · exact haltedStep_cfg hh
  · simp
  · simp [progbufInstr_cfg hu]

theorem hartStep_cfg {s t : State} {inputs : HartInputs} (h : s.hartStep inputs = .next t) : t.cfg = s.cfg := by
  unfold State.hartStep at h
  split at h
  · obtain ⟨u, hu, rfl⟩ := mapNext_eq_next h
    exact (u.lateRequests_cfg inputs).trans (debugStep_cfg hu)
  · exact runStep_cfg h

/-! ### Events and the whole step -/

theorem abstractReadDpcRunning_cfg {s t : State} (h : s.abstractReadDpcRunning = .next t) : t.cfg = s.cfg := by
  unfold State.abstractReadDpcRunning at h
  split at h <;> cases h
  rfl

theorem abstractWriteDpcRunning_cfg {s t : State} {w : Word} (h : s.abstractWriteDpcRunning w = .next t) :
    t.cfg = s.cfg := by
  unfold State.abstractWriteDpcRunning at h
  split at h <;> cases h
  rfl

theorem applyEvent_cfg {s t : State} {e : Event} (h : s.applyEvent e = .next t) : t.cfg = s.cfg := by
  cases e with
  | hart inputs => exact hartStep_cfg h
  | resumeReq =>
    simp only [State.applyEvent] at h
    split at h <;> cases h
    rfl
  | abstractRead r p =>
    obtain ⟨-, rfl⟩ := abstractRead_next h
    simp
  | abstractWrite r w p =>
    obtain ⟨-, -, rfl⟩ := abstractWrite_next h
    simp
  | abstractReadDpcRunning => exact abstractReadDpcRunning_cfg h
  | abstractWriteDpcRunning w => exact abstractWriteDpcRunning_cfg h
  | execProgbuf instrs =>
    simp only [State.applyEvent] at h
    split at h <;> cases h
    rfl
  | reset =>
    cases h
    exact s.resetEvent_cfg
  | haltReq | clearHaltReq | armResetHaltReq | disarmResetHaltReq | nmi _ | mtimeAdvance _ | haltGroup _ | interrupt _ =>
    cases h
    rfl

/-- The parameters of a hart are those it had (00_scope.md R4). -/
theorem step_cfg {s t : State} (h : step s = .next t) : t.cfg = s.cfg := by
  obtain ⟨-, -, ha⟩ := step_next h
  rcases advance_next ha with ⟨-, inputs, hs, -⟩ | ⟨e, rest, -, he⟩
  · exact hartStep_cfg hs
  · exact (applyEvent_cfg he).trans (s.setEnv_cfg rest)

end Sys2Proof.Machine

namespace Sys2Proof.Claims

open Sys2Proof.Machine

/-- Settles O60: every kind of step, reset and entry into Debug Mode included, keeps `cfg`. -/
theorem parametersAreFixed : Obligations.ParametersAreFixed := fun _ _ h => step_cfg h

end Sys2Proof.Claims
end

/-! Proof of `StepKeepsSoundness`: each operation on the state keeps a sound state, then each instruction, the hart's step, the
events and `step` (10_state.md R15 to R28, R39, R52 to R56). -/

namespace Sys2Proof.Machine

/-! ### Words and modes -/

theorem IsInstrAddress.fits {c : Config} {w : Word} (h : IsInstrAddress c w) : Fits c w := by
  unfold Fits
  rw [← h]
  exact trunc_instrAddress c w

/-- An XLEN-bit value is the number of an address. -/
theorem trunc_toNat_lt (c : Config) (w : Word) : (trunc c w).toNat < addressCount c := by
  unfold trunc addressCount
  split
  · exact Nat.lt_of_le_of_lt (by rw [BitVec.toNat_and]; exact Nat.and_le_right) (by decide : 0xffffffff < 2 ^ 32)
  · exact w.isLt

/-- M-mode is a mode of every hart (30_encoding.md R94). -/
@[simp] theorem supported_machineMode (c : Config) : supported c (false, 3) = true := rfl

@[simp] theorem supported_supportedOrM (c : Config) (m : Bool × BitVec 2) : supported c (supportedOrM c m) = true := by
  unfold supportedOrM
  split
  · assumption
  · rfl

/-- What a write of `dcsr` stores in `v` and `prv` is a mode the hart has (10_state.md R28). -/
@[simp] theorem supported_prvLegalize (c : Config) (old new : Bool × BitVec 2) :
    supported c (prvLegalize c old new) = true := by
  unfold prvLegalize
  split
  · exact supported_supportedOrM c new
  · split
    · rename_i h
      exact (Bool.and_eq_true _ _ ▸ h).1
    · exact supported_supportedOrM c _

/-- The mode that takes a trap is one the hart has. -/
theorem supported_trapTarget (c : Config) (tm : TrapMode) : supported c (trapModeCode (trapTarget c tm)) = true := by
  cases tm with
  | m => rfl
  | s => cases h : c.hasS <;> simp [trapTarget, trapModeCode, supported, h]
  | vs => cases h : c.hasH <;> simp [trapTarget, trapModeCode, supported, h]

/-- A mode with virtualization is one of a hart with the hypervisor extension (30_encoding.md R94). -/
theorem hasH_of_supported_virt {c : Config} {p : BitVec 2} (h : supported c (true, p) = true) : c.hasH = true := by
  unfold supported at h
  split at h <;> simp_all

/-- The mode an entry into Debug Mode records is the mode the hart ran in (10_state.md R24, R28). -/
theorem hasH_and_virt {c : Config} {b : Base} (h : supported c (b.virt, b.priv) = true) : (c.hasH && b.virt) = b.virt := by
  cases hv : b.virt with
  | false => simp
  | true => simp [hasH_of_supported_virt (hv ▸ h)]

/-- The codes of the six reasons are 1 to 6 (60_exceptions.md R150). -/
theorem causeCode_ne (c : Config) (r : Reason) : causeCode c r ≠ 0 ∧ causeCode c r ≠ 7 := by
  cases r with
  | ebreak | trigger | haltreq | step => exact ⟨by simp [causeCode], by simp [causeCode]⟩
  | resethaltreq => cases h : c.resethaltAs3 <;> simp [causeCode, h]
  | group => cases h : c.groupAs3 <;> simp [causeCode, h]

/-! ### The base hart -/

/-- The counters are no part of what makes a base hart sound. -/
theorem Base.Sound.counters {c : Config} {b : Base} (h : b.Sound c) (cycle instret : Nat) (l : List Nat) :
    { b with cycle := cycle, instret := instret, localCounters := l }.Sound c := { h with }

theorem Base.Sound.withPc {c : Config} {b : Base} (h : b.Sound c) {w : Word} (hw : Fits c w) :
    { b with pc := w }.Sound c := { h with pc := hw }

/-- A write of a general register stores an XLEN-bit value, and none in `x0` (10_state.md R56). -/
theorem Base.Sound.setReg {c : Config} {b : Base} (h : b.Sound c) (r : Reg) (w : Word) : (b.setReg c r w).Sound c := by
  unfold Base.setReg
  split
  · exact h
  · rename_i hr
    have hr0 : (r : ℕ) ≠ 0 := fun e => hr (Fin.ext e)
    exact { h with
      x0 := by simpa [Vector.getElem_set, hr0] using h.x0
      x := fun q => by
        by_cases hq : (r : ℕ) = q
        · simp [Fits, hq]
        · simpa [Fits, hq] using h.x q }

theorem Base.Sound.setTrapRegs {c : Config} {b : Base} (h : b.Sound c) (tm : TrapMode) {t : TrapRegs} (ht : t.Fits c) :
    (b.setTrapRegs tm t).Sound c := by
  cases tm with
  | m => exact { h with trapM := ht }
  | s => exact { h with trapS := ht }
  | vs => exact { h with trapVS := ht }

/-- Whatever the base hart answers, its state is sound. -/
theorem Base.Sound.applyEffect {s : State} (h : s.base.Sound s.cfg) (n : Option Nat) (e : BaseEffect) :
    (s.applyEffect n e).base.Sound s.cfg where
  x0 := by simp [State.applyEffect]
  x q := by
    by_cases hq : (q : ℕ) = 0
    · have hx : (s.applyEffect n e).base.x[q] = 0 := by simp [State.applyEffect, hq]
      rw [Fits, hx, trunc_zero]
    · simp [Fits, State.applyEffect, Ne.symm hq]
  pc := trunc_instrAddress _ _
  mode := supported_supportedOrM _ _
  trapM := TrapRegs.trunc_trunc _ _
  trapS := TrapRegs.trunc_trunc _ _
  trapVS := TrapRegs.trunc_trunc _ _
  mem := Memory.writeAll_wf h.mem _
  memTop cell hc := by
    rcases Memory.mem_writeAll hc with hc | hc
    · obtain ⟨st, -, rfl⟩ := List.mem_map.mp hc
      exact trunc_toNat_lt _ _
    · exact h.memTop cell hc

/-! ### The stored fields of `dcsr` -/

theorem writtenBit_writtenBit (impl : BitImpl) (b : Bool) : writtenBit impl (writtenBit impl b) = writtenBit impl b := by
  cases impl <;> rfl

/-- The reset value of a WARL bit is one that a write can store (70_reset_and_hazards.md R204). -/
theorem writtenBit_presetBit (impl : BitImpl) (b : Bool) : writtenBit impl (presetBit impl b) = presetBit impl b := by
  cases impl <;> rfl

theorem legal_reset (c : Config) : (Dcsr.reset c).Legal c where
  ebreakvs _ := rfl
  ebreakvu _ := rfl
  ebreaks _ := rfl
  ebreaku _ := rfl
  stepie _ := rfl
  stopcount := writtenBit_presetBit _ _
  stoptime := writtenBit_presetBit _ _
  mprven := writtenBit_presetBit _ _
  mode := supported_machineMode c
  cause := by simp [Dcsr.reset]

/-- Whatever is written, what is stored is legal, if `cause`, which a write keeps, was no reserved code
(40_csr_access.md R113). -/
theorem legal_legalizeDcsr {c : Config} {d : Dcsr} (h : d.cause ≠ 7) (f : Dcsr) : (legalizeDcsr c d f).Legal c where
  ebreakvs hH := by simp [legalizeDcsr, hH]
  ebreakvu hH := by simp [legalizeDcsr, hH]
  ebreaks hS := by simp [legalizeDcsr, hS]
  ebreaku hU := by simp [legalizeDcsr, hU]
  stepie hw := by simp [legalizeDcsr, hw]
  stopcount := writtenBit_writtenBit _ _
  stoptime := writtenBit_writtenBit _ _
  mprven := writtenBit_writtenBit _ _
  mode := supported_prvLegalize _ _ _
  cause := h

/-! ### The operations on the state -/

namespace State.Sound

variable {s : State}

theorem tick (h : s.Sound) (mayRetire entering : Bool) : (s.tick mayRetire entering).Sound :=
  { h with base := h.base.counters _ _ _ }

theorem setReg (h : s.Sound) (r : Reg) (w : Word) : (s.setReg r w).Sound :=
  { h with
    base := h.base.setReg r w
    pc := fun hd => by simpa using h.pc hd }

/-- A part of the Program Buffer is left only in Debug Mode. -/
theorem setProgbuf (h : s.Sound) {p : Option (List Byte)} (hp : s.debugMode = false → p = none) :
    (s.setProgbuf p).Sound := { h with progbuf := hp }

theorem endProgbuf (h : s.Sound) : (s.setProgbuf none).Sound := h.setProgbuf fun _ => rfl

theorem setProgbuf_halted (h : s.Sound) (hd : s.debugMode = true) (p : Option (List Byte)) : (s.setProgbuf p).Sound :=
  h.setProgbuf fun hf => by simp [hd] at hf

theorem applyEffect (h : s.Sound) (n : Option Nat) (e : BaseEffect) : (s.applyEffect n e).Sound :=
  { h with
    base := h.base.applyEffect n e
    pc := fun _ => instrAddress_instrAddress _ _ }

theorem baseInstr (h : s.Sound) (bytes : List Byte) (n : Option Nat) : (s.baseInstr bytes n).Sound := by
  rcases baseInstr_cases s bytes n with ⟨-, hb⟩ | hb
  · rw [hb]
    exact (h.tick _ _).endProgbuf
  · rw [hb]
    exact (h.applyEffect n _).tick _ _

/-- The values a trap saves are XLEN-bit values, where the trap value of a breakpoint is. -/
theorem trapRegs_fits (h : s.Sound) {e : Exc} (t : TrapEntry) (he : Fits s.cfg (s.excTval t e)) :
    TrapRegs.Fits s.cfg { epc := s.base.pc, cause := s.excCause e, tval := s.excTval t e } := by
  have hpc : trunc s.cfg s.base.pc = s.base.pc := h.base.pc
  have hcause : trunc s.cfg (s.excCause e) = s.excCause e := by
    cases e with
    | illegalInstruction instr => exact trunc_draw s _
    | breakpoint addr => cases hx : s.cfg.xlen <;> simp [State.excCause, trunc, hx]
  have htval : trunc s.cfg (s.excTval t e) = s.excTval t e := he
  simp [TrapRegs.Fits, TrapRegs.trunc, hpc, hcause, htval]

theorem takeTrap (h : s.Sound) {e : Exc} (he : ∀ t, Fits s.cfg (s.excTval t e)) : (s.takeTrap e).Sound :=
  have hb := h.base.setTrapRegs (trapTarget s.cfg (Config.baseTrap s.cfg s.draws e s.base).mode) (h.trapRegs_fits _ (he _))
  { h with
    base := { hb with
      pc := trunc_instrAddress _ _
      mode := supported_trapTarget _ _ }
    pc := fun _ => instrAddress_instrAddress _ _ }

theorem raise (h : s.Sound) {e : Exc} (he : ∀ t, Fits s.cfg (s.excTval t e)) : (s.raise e).Sound := by
  rcases raise_cases s e with ⟨-, hr⟩ | ⟨-, hr⟩
  · rw [hr]
    exact (h.tick _ _).endProgbuf
  · rw [hr]
    exact (h.tick _ _).takeTrap he

theorem raise_illegal (h : s.Sound) (instr : List Byte) : (s.raise (.illegalInstruction instr)).Sound :=
  h.raise fun _ => trunc_trunc _ _

theorem raise_breakpoint (h : s.Sound) : (s.raise (.breakpoint s.base.pc)).Sound := by
  refine h.raise fun t => ?_
  unfold State.excTval
  cases s.cfg.bpTvalIsAddr with
  | true => exact h.base.pc
  | false => exact trunc_zero s.cfg

/-- An entry into Debug Mode at an instruction address (60_exceptions.md R165). -/
theorem enterDebug (h : s.Sound) (r : Reason) {a : Word} (ha : IsInstrAddress s.cfg a) : (s.enterDebug r a).Sound :=
  { h with
    dcsr := { h.dcsr with
      mode := by
        show supported s.cfg (s.cfg.hasH && s.base.virt, s.base.priv) = true
        rw [hasH_and_virt h.base.mode]
        exact h.base.mode
      cause := (causeCode_ne s.cfg r).2 }
    base := h.base.withPc (trunc_draw s _)
    dpc := ha
    pc := fun hd => by cases hd
    cause := fun _ => (causeCode_ne s.cfg r).1
    entered := fun _ => rfl
    time := fun t ht => by
      cases ht
      exact Nat.le_refl _
    progbuf := fun hd => by cases hd
    trigHalt := fun _ => rfl
    trigNone := fun _ => rfl }

theorem commandBoundary (h : s.Sound) : s.commandBoundary.Sound :=
  { h with
    scratch0 := trunc_draw s _
    scratch1 := trunc_draw s _ }

theorem freshScratch (h : s.Sound) : s.freshScratch.Sound := by
  unfold State.freshScratch
  split
  · exact h.commandBoundary
  · exact h

/-- Resuming takes `pc` and the mode from registers that hold legal ones (60_exceptions.md R180). -/
theorem resume (h : s.Sound) : s.resume.Sound :=
  { h with
    base := { h.base with
      pc := h.dpc.fits
      mode := h.dcsr.mode }
    pc := fun _ => h.dpc
    cause := fun hd => by cases hd
    entered := fun hd => by cases hd
    progbuf := fun _ => rfl
    trigHalt := fun hd => by cases hd }

theorem closeProgbuf (h : s.Sound) : s.closeProgbuf.Sound := by
  rcases closeProgbuf_cases s with hc | ⟨-, -, hc⟩
  · rw [hc]
    exact h
  · rw [hc]
    exact { h with dpc := instrAddress_instrAddress _ _ }

theorem takeInterrupt (h : s.Sound) : s.takeInterrupt.Sound := { (h.applyEffect none _).tick false false with }

theorem takeJump (h : s.Sound) : s.takeJump.Sound := by
  rcases takeJump_cases s with hj | ⟨w, -, hj⟩
  · rw [hj]
    exact h
  · rw [hj]
    have hw : IsInstrAddress s.cfg (dpcLegalize s.cfg w) := instrAddress_dpcLegalize _ _
    exact { h with
      base := h.base.withPc hw.fits
      pc := fun _ => hw }

theorem notePc (h : s.Sound) : s.notePc.Sound := { h with }

theorem setEnv (h : s.Sound) (env : List Event) : (s.setEnv env).Sound := { h with }

theorem lateRequests (h : s.Sound) (inputs : HartInputs) : (s.lateRequests inputs).Sound := { h with }

theorem returnToDebugger (h : s.Sound) (w : Word) : (s.returnToDebugger w).Sound := { h with }

theorem startProgbuf (h : s.Sound) (hd : s.debugMode = true) (p : Option (List Byte)) : (s.startProgbuf p).Sound := by
  cases p with
  | none => exact h
  | some bytes => exact h.setProgbuf_halted hd _

/-- A write of one of the four registers stores a legal value (40_csr_access.md R113 to R115). -/
theorem writeCsr (h : s.Sound) (r : DebugCsr) (w : Word) : (s.writeCsr r w).Sound := by
  cases r with
  | dcsr => exact { h with dcsr := legal_legalizeDcsr h.dcsr.cause _ }
  | dpc => exact { h with dpc := instrAddress_dpcLegalize _ _ }
  | dscratch0 => exact { h with scratch0 := trunc_trunc _ _ }
  | dscratch1 => exact { h with scratch1 := trunc_trunc _ _ }

/-! ### Instructions and the hart's step -/

theorem of_execShape {t : State} (h : s.Sound) (hs : ExecShape s t) : t.Sound := by
  cases hs with
  | base bytes n => exact h.baseInstr bytes n
  | illegal instr => exact h.raise_illegal instr
  | breakpoint => exact h.raise_breakpoint
  | csrRead r rd => exact (h.tick _ _).setReg rd _
  | csrWrite r rd w => exact ((h.tick _ _).setReg rd _).writeCsr r w
  | enter hd => exact (h.tick _ _).enterDebug _ (h.pc hd)
  | endProgbuf => exact (h.tick _ _).endProgbuf
  | resume => exact (h.tick _ _).resume

theorem executeAtPc {t : State} (h : s.Sound) (hs : s.executeAtPc = .next t) : t.Sound :=
  h.notePc.of_execShape (executeAtPc_shape hs)

theorem afterInstr (h : s.Sound) (inputs : HartInputs) : (s.afterInstr inputs).Sound := by
  rcases afterInstr_cases s inputs with ⟨-, ha⟩ | ⟨hd, u, hu, ha⟩
  · rw [ha]
    exact h.lateRequests inputs
  · have hus : u.Sound := by
      rw [hu]
      exact { h with
        trigHalt := fun ht => by simp [hd] at ht
        trigNone := fun ht => by
          have ht : s.cfg.hasTriggers = false := ht
          simp [ht] }
    have hud : u.debugMode = false := by rw [hu]; exact hd
    rcases ha with ha | ⟨-, r, -, ha⟩
    · rw [ha]
      exact hus
    · rw [ha]
      exact hus.enterDebug r (hus.pc hud)

theorem runStep {t : State} {inputs : HartInputs} (h : s.Sound) (hd : s.debugMode = false)
    (hs : s.runStep inputs = .next t) : t.Sound := by
  have hj := h.takeJump
  rcases runStep_next hs with ⟨r, -, rfl⟩ | ⟨u, hu, rfl⟩ | ⟨-, -, rfl | ⟨u, hu, rfl⟩⟩
  · exact ((hj.tick _ _).enterDebug r (hj.pc (by simp [hd]))).lateRequests inputs
  · exact (hj.executeAtPc hu).afterInstr inputs
  · exact hj.takeInterrupt.afterInstr inputs
  · exact (hj.takeInterrupt.executeAtPc hu).afterInstr inputs

theorem haltedStep {t : State} (h : s.Sound) (hs : s.haltedStep = .next t) : t.Sound := by
  rcases haltedStep_next hs with rfl | ⟨-, ⟨i, -, hi⟩ | ⟨n, rfl⟩⟩
  · exact h.tick _ _
  · exact h.freshScratch.of_execShape (exec_shape hi)
  · exact h.freshScratch.baseInstr _ _

theorem progbufInstr {t : State} {bytes : List Byte} (h : s.Sound) (hd : s.debugMode = true)
    (hs : s.progbufInstr bytes = .next t) : t.Sound := by
  rcases progbufInstr_next hs with ⟨i, rest, -, hi⟩ | ⟨n, rfl⟩ | rfl
  · exact (h.setProgbuf_halted hd _).of_execShape (exec_shape hi)
  · exact (h.setProgbuf_halted hd _).baseInstr _ _
  · exact h.raise_illegal _

theorem debugStep {t : State} (h : s.Sound) (hd : s.debugMode = true) (hs : s.debugStep = .next t) : t.Sound := by
  rcases debugStep_next hs with ⟨-, hh⟩ | ⟨-, rfl⟩ | ⟨bytes, u, -, hu, rfl⟩
  · exact h.haltedStep hh
  · exact (h.tick _ _).endProgbuf.closeProgbuf
  · exact (h.progbufInstr hd hu).closeProgbuf

theorem hartStep {t : State} {inputs : HartInputs} (h : s.Sound) (hs : s.hartStep inputs = .next t) : t.Sound := by
  unfold State.hartStep at hs
  split at hs
  · rename_i hd
    obtain ⟨u, hu, rfl⟩ := mapNext_eq_next hs
    exact (h.debugStep hd hu).lateRequests inputs
  · rename_i hd
    exact h.runStep (by simpa using hd) hs

/-! ### Events and the whole step -/

/-- The state a reset leaves before a halt (70_reset_and_hazards.md R200): what the base hart's reset answers, in M-mode at the
reset `pc`, and the registers at legal values. -/
theorem resetCore (h : s.Sound) : s.resetCore.Sound where
  dcsr := legal_reset s.cfg
  base := { h.base.applyEffect none (Config.baseReset s.cfg s.draws s.base) with
    pc := trunc_instrAddress _ _
    mode := supported_machineMode _ }
  dpc := instrAddress_instrAddress _ _
  scratch0 := trunc_draw s _
  scratch1 := trunc_draw s _
  pc _ := instrAddress_instrAddress _ _
  cause hd := by cases hd
  entered hd := by cases hd
  time t ht := by cases ht
  progbuf _ := rfl
  trigHalt hd := by cases hd
  trigNone _ := rfl

theorem resetEvent (h : s.Sound) : s.resetEvent.Sound := by
  rcases resetEvent_cases s with hr | ⟨-, -, hr⟩
  · rw [hr]
    exact h.resetCore
  · rw [hr]
    exact h.resetCore.enterDebug _ (instrAddress_instrAddress _ _)

theorem abstractReadDpcRunning {t : State} (h : s.Sound) (hs : s.abstractReadDpcRunning = .next t) : t.Sound := by
  unfold State.abstractReadDpcRunning at hs
  split at hs <;> cases hs
  exact h.returnToDebugger _

theorem abstractWriteDpcRunning {t : State} {w : Word} (h : s.Sound) (hs : s.abstractWriteDpcRunning w = .next t) :
    t.Sound := by
  unfold State.abstractWriteDpcRunning at hs
  split at hs <;> cases hs
  exact { h with }

theorem applyEvent {t : State} {e : Event} (h : s.Sound) (hs : s.applyEvent e = .next t) : t.Sound := by
  cases e with
  | hart inputs => exact h.hartStep hs
  | resumeReq =>
    simp only [State.applyEvent] at hs
    split at hs <;> cases hs
    exact h.resume
  | abstractRead r p =>
    obtain ⟨ha, rfl⟩ := abstractRead_next hs
    exact (h.commandBoundary.returnToDebugger _).startProgbuf (Bool.and_eq_true _ _ ▸ ha).1 p
  | abstractWrite r w p =>
    obtain ⟨ha, -, rfl⟩ := abstractWrite_next hs
    exact (h.commandBoundary.writeCsr r w).startProgbuf (by cases r <;> exact (Bool.and_eq_true _ _ ▸ ha).1) p
  | abstractReadDpcRunning => exact h.abstractReadDpcRunning hs
  | abstractWriteDpcRunning w => exact h.abstractWriteDpcRunning hs
  | execProgbuf instrs =>
    simp only [State.applyEvent] at hs
    split at hs <;> cases hs
    rename_i hd
    exact h.commandBoundary.startProgbuf hd _
  | reset =>
    cases hs
    exact h.resetEvent
  | mtimeAdvance n =>
    cases hs
    exact { h with time := fun t ht => Nat.le_add_right_of_le (h.time t ht) }
  | haltReq | clearHaltReq | armResetHaltReq | disarmResetHaltReq | nmi _ | haltGroup _ | interrupt _ =>
    cases hs
    exact { h with }

end State.Sound

theorem step_sound {s t : State} (h : s.Sound) (hs : step s = .next t) : t.Sound := by
  obtain ⟨-, -, ha⟩ := step_next hs
  rcases advance_next ha with ⟨-, inputs, hh, -⟩ | ⟨e, rest, -, he⟩
  · exact h.hartStep hh
  · exact (h.setEnv rest).applyEvent he

end Sys2Proof.Machine

namespace Sys2Proof.Claims

open Sys2Proof.Machine

/-- Settles O58: each operation on the state keeps soundness, so every kind of step does. -/
theorem stepKeepsSoundness : Obligations.StepKeepsSoundness := fun _ _ h hs => step_sound h hs

end Sys2Proof.Claims

/-! Proofs of `DcsrFieldsSurvivePacking`, `NmipFollowsTheInput`, `DcsrReadsAfterReset`, `WrittenModeIsSupported` and
`DpcWriteIsLegalized`: `dcsr` as a union of fields that lie apart (00_scope.md P26), and what the WARL fields store. -/

namespace Sys2Proof.Machine

/-! ### The fields of `dcsr` at their places -/

/-- A field of a packed `dcsr`: its place and its value. -/
structure DcsrPart where
  lsb   : Nat
  width : Nat
  value : BitVec width

/-- The field at its place in the word. -/
def DcsrPart.word (p : DcsrPart) : BitVec 32 := putField p.lsb p.value

/-- The fifteen fields that `packDcsr` puts together (40_csr_access.md R112). -/
def dcsrParts (l : DcsrLayout) (debugver : BitVec 4) (nmip : Bool) (d : Dcsr) : List DcsrPart :=
  [⟨l.debugver, 4, debugver⟩, ⟨l.ebreakvs, 1, .ofBool d.ebreakvs⟩, ⟨l.ebreakvu, 1, .ofBool d.ebreakvu⟩,
   ⟨l.ebreakm, 1, .ofBool d.ebreakm⟩, ⟨l.ebreaks, 1, .ofBool d.ebreaks⟩, ⟨l.ebreaku, 1, .ofBool d.ebreaku⟩,
   ⟨l.stepie, 1, .ofBool d.stepie⟩, ⟨l.stopcount, 1, .ofBool d.stopcount⟩, ⟨l.stoptime, 1, .ofBool d.stoptime⟩,
   ⟨l.cause, 3, d.cause⟩, ⟨l.v, 1, .ofBool d.v⟩, ⟨l.mprven, 1, .ofBool d.mprven⟩, ⟨l.nmip, 1, .ofBool nmip⟩,
   ⟨l.step, 1, .ofBool d.step⟩, ⟨l.prv, 2, d.prv⟩]

/-- The parts are the fields of the layout, one for one. -/
theorem map_dcsrParts (l : DcsrLayout) (dv : BitVec 4) (nmip : Bool) (d : Dcsr) :
    (dcsrParts l dv nmip d).map (fun p => (p.lsb, p.width)) = l.fields := rfl

/-- Two fields have no bit in common. -/
def DcsrPart.Apart (p q : DcsrPart) : Prop := p.lsb + p.width ≤ q.lsb ∨ q.lsb + q.width ≤ p.lsb

theorem DcsrPart.getLsbD_word (p : DcsrPart) (i : Nat) :
    p.word.getLsbD i = (decide (i < 32) && (decide (p.lsb ≤ i) && p.value.getLsbD (i - p.lsb))) := by
  by_cases hi : i < 32
  · by_cases hl : p.lsb ≤ i
    · simp [word, putField, hi, hl, Nat.not_lt.mpr hl]
    · simp [word, putField, hi, hl, Nat.lt_of_not_le hl]
  · simp [word, putField, hi]

/-- A bit of a field's word is set only inside the field. -/
theorem DcsrPart.lt_of_getLsbD_word {p : DcsrPart} {i : Nat} (h : p.word.getLsbD i = true) :
    p.lsb ≤ i ∧ i < p.lsb + p.width := by
  rw [getLsbD_word, Bool.and_eq_true, Bool.and_eq_true, decide_eq_true_eq, decide_eq_true_eq] at h
  obtain ⟨-, hle, hv⟩ := h
  have := BitVec.lt_of_getLsbD hv
  omega

/-- A bit of a packed `dcsr` is set where it is set in a field. -/
theorem getLsbD_packDcsr (l : DcsrLayout) (dv : BitVec 4) (nmip : Bool) (d : Dcsr) (i : Nat) :
    (packDcsr l dv nmip d).getLsbD i = (dcsrParts l dv nmip d).any fun p => p.word.getLsbD i := by
  simp [packDcsr, dcsrParts, putBit, DcsrPart.word, Bool.or_assoc]

section
variable {l : DcsrLayout} {dv : BitVec 4} {nmip : Bool} {d : Dcsr} (hl : l.wf = true)
include hl

/-- Under a legal layout every field lies inside the word. -/
theorem DcsrLayout.part_le {p : DcsrPart} (hp : p ∈ dcsrParts l dv nmip d) : p.lsb + p.width ≤ 32 := by
  have hall := (Bool.and_eq_true _ _ ▸ hl).1
  rw [← map_dcsrParts l dv nmip d] at hall
  simpa using List.all_eq_true.mp hall _ (List.mem_map_of_mem hp)

/-- Under a legal layout any two fields are the same or lie apart. -/
theorem DcsrLayout.parts_apart {p q : DcsrPart} (hp : p ∈ dcsrParts l dv nmip d) (hq : q ∈ dcsrParts l dv nmip d) :
    p = q ∨ p.Apart q := by
  have hfields := of_decide_eq_true (Bool.and_eq_true _ _ ▸ hl).2
  rw [← map_dcsrParts l dv nmip d, List.pairwise_map] at hfields
  have hpair : (dcsrParts l dv nmip d).Pairwise DcsrPart.Apart := hfields
  have : Std.Symm DcsrPart.Apart := ⟨fun _ _ h => h.symm⟩
  exact or_iff_not_imp_left.mpr (hpair.forall hp hq)

/-- Under a legal layout the bits of a field are the bits of its value. -/
theorem getLsbD_packDcsr_part {p : DcsrPart} (hp : p ∈ dcsrParts l dv nmip d) {j : Nat} (hj : j < p.width) :
    (packDcsr l dv nmip d).getLsbD (p.lsb + j) = p.value.getLsbD j := by
  have hin := DcsrLayout.part_le hl hp
  have hword : p.word.getLsbD (p.lsb + j) = p.value.getLsbD j := by
    have : p.lsb + j < 32 := by omega
    rw [DcsrPart.getLsbD_word]
    simp [this]
  rw [getLsbD_packDcsr, ← hword, Bool.eq_iff_iff, List.any_eq_true]
  constructor
  · rintro ⟨q, hq, hbit⟩
    rcases DcsrLayout.parts_apart hl hp hq with rfl | hapart
    · exact hbit
    · have := DcsrPart.lt_of_getLsbD_word hbit
      unfold DcsrPart.Apart at hapart
      omega
  · exact fun hbit => ⟨p, hp, hbit⟩

/-- A field read back from a packed `dcsr`. -/
theorem extractLsb'_packDcsr {lsb n : Nat} {v : BitVec n}
    (hp : ⟨lsb, n, v⟩ ∈ dcsrParts l dv nmip d := by simp [dcsrParts]) :
    (packDcsr l dv nmip d).extractLsb' lsb n = v := by
  ext j hj
  rw [BitVec.getElem_extractLsb', getLsbD_packDcsr_part hl hp hj, BitVec.getLsbD_eq_getElem hj]

/-- A one-bit field read back from a packed `dcsr`. -/
theorem getLsbD_packDcsr_bit {lsb : Nat} {b : Bool}
    (hp : ⟨lsb, 1, .ofBool b⟩ ∈ dcsrParts l dv nmip d := by simp [dcsrParts]) :
    (packDcsr l dv nmip d).getLsbD lsb = b := by
  simpa using getLsbD_packDcsr_part hl hp Nat.one_pos

/-- Unpacking undoes packing. -/
theorem unpackDcsr_packDcsr : unpackDcsr l (packDcsr l dv nmip d) = d := by
  obtain ⟨_, _, _, _, _, _, _, _, _, _, _, _, _⟩ := d
  rw [unpackDcsr, Dcsr.mk.injEq]
  exact ⟨getLsbD_packDcsr_bit hl, getLsbD_packDcsr_bit hl, getLsbD_packDcsr_bit hl, getLsbD_packDcsr_bit hl,
    getLsbD_packDcsr_bit hl, getLsbD_packDcsr_bit hl, getLsbD_packDcsr_bit hl, getLsbD_packDcsr_bit hl,
    extractLsb'_packDcsr hl, getLsbD_packDcsr_bit hl, getLsbD_packDcsr_bit hl, getLsbD_packDcsr_bit hl,
    extractLsb'_packDcsr hl⟩

end

theorem DcsrLayout.standard_wf : DcsrLayout.standard.wf = true := by decide

/-- `nmip` adds its own bit to the packed word and no other. -/
theorem packDcsr_eq_or_nmip (l : DcsrLayout) (dv : BitVec 4) (nmip : Bool) (d : Dcsr) :
    packDcsr l dv nmip d = packDcsr l dv false d ||| putBit l.nmip nmip := by
  have hzero : putBit l.nmip false = 0#32 := by simp [putBit, putField]
  simp only [packDcsr, hzero, BitVec.or_zero]
  ac_rfl

/-- Outside bit 3 what `dcsr` reads as under the layout of 10_state.md R29 does not depend on `nmip`. -/
theorem packDcsr_and_not_nmip (dv : BitVec 4) (b b' : Bool) (d : Dcsr) :
    packDcsr .standard dv b d &&& ~~~8#32 = packDcsr .standard dv b' d &&& ~~~8#32 := by
  have hbit (n : Bool) : putBit DcsrLayout.standard.nmip n &&& ~~~8#32 = 0#32 := by cases n <;> rfl
  have hdrop (n : Bool) : packDcsr .standard dv n d &&& ~~~8#32 = packDcsr .standard dv false d &&& ~~~8#32 := by
    rw [packDcsr_eq_or_nmip, BitVec.and_comm, BitVec.and_or_distrib_left, BitVec.and_comm _ (putBit _ _), hbit,
      BitVec.or_zero, BitVec.and_comm]
  exact (hdrop b).trans (hdrop b').symm

/-! ### What the WARL fields store -/

/-- The modes of a hart: the column "Exists when" of 30_encoding.md R94. -/
theorem supported_iff (c : Config) (m : Bool × BitVec 2) : supported c m = true ↔
    m = (false, 3) ∨ (m = (false, 1) ∧ c.hasS = true) ∨ (m = (false, 0) ∧ c.hasU = true) ∨
    (m = (true, 1) ∧ c.hasH = true) ∨ (m = (true, 0) ∧ c.hasH = true) := by
  unfold supported
  split <;> simp_all

/-- The default `P.PRV_LEGALIZE` (10_state.md R28). -/
theorem prvLegalize_toM {c : Config} (h : c.prvPolicy = .toM) (old new : Bool × BitVec 2) :
    prvLegalize c old new = if supported c new = true then new else (false, 3) := by
  simp only [prvLegalize, h, supportedOrM]

/-- Under either policy a supported mode that the debugger may change to, or that is there already, is stored
(10_state.md R28). -/
theorem prvLegalize_allowed {c : Config} {old new : Bool × BitVec 2} (hs : supported c new = true)
    (ha : new = old ∨ Config.prvAllowed c old new = true) : prvLegalize c old new = new := by
  unfold prvLegalize
  split
  · simp [supportedOrM, hs]
  · simp [hs, ha]

theorem savedMode_writeCsr_dcsr (s : State) (w : Word) :
    (s.writeCsr .dcsr w).savedMode = prvLegalize s.cfg s.savedMode (Claims.writtenMode s.cfg w) := rfl

theorem instrAddress_of_fits {c : Config} {w : Word} (h : Fits c w) : instrAddress c w = clearLowBits c w := by
  rw [instrAddress, h]

/-- An instruction address is even, and a multiple of 4 with IALIGN 32 (10_state.md R39). -/
theorem IsInstrAddress.lowBits {c : Config} {w : Word} (h : IsInstrAddress c w) :
    w.getLsbD 0 = false ∧ (c.ialign = .i32 → w.getLsbD 1 = false) := by
  rw [← h, instrAddress]
  unfold clearLowBits
  split
  · rename_i hi
    exact ⟨by simp, fun h32 => by simp [hi] at h32⟩
  · exact ⟨by simp, fun _ => by simp⟩

theorem dpcLegalize_clearLow {c : Config} (h : c.dpcPolicy = .clearLow) (w : Word) :
    dpcLegalize c w = instrAddress c w := by
  simp only [dpcLegalize, h]

/-- A valid address is stored with its low bits clear (10_state.md R41). -/
theorem dpcLegalize_of_valid {c : Config} {w : Word} (h : Config.validAddress c (instrAddress c w) = true) :
    dpcLegalize c w = instrAddress c w := by
  unfold dpcLegalize
  split
  · rfl
  · simp [h]

/-- In place of an invalid address an invalid one is stored (10_state.md R41). -/
theorem validAddress_dpcLegalize {c : Config} {w : Word} (h : Config.validAddress c (instrAddress c w) = false) :
    Config.validAddress c (dpcLegalize c w) = false := by
  unfold dpcLegalize
  split
  · exact h
  · split
    · exact h
    · split
      · rename_i hconv
        simp only [Bool.and_eq_true, Bool.not_eq_true'] at hconv
        exact hconv.2
      · exact h

/-! ### `dcsr` out of reset -/

/-- What a read of `dcsr` packs where every field but `cause` is at its reset value with presets 0 (10_state.md R32). -/
theorem readCsr_dcsr_of_resetFields {s : State} {cause : BitVec 3} (hl : s.cfg.layout = .standard)
    (hv : s.cfg.debugver = .v1_0) (hn : s.nmiPending = false) (hd : s.dcsr = { cause := cause }) :
    s.readCsr .dcsr = (packDcsr .standard 4 false { cause := cause }).setWidth 64 := by
  simp only [State.readCsr, State.dcsrBits, State.nmip, hl, hv, hn, hd, debugverCode]

/-- With presets 0 the reset value of `dcsr` has `prv` 3 and every other field 0 (10_state.md R32). -/
theorem reset_eq_of_presets {c : Config} (hc : presetBit c.stopcountImpl c.stopcountPreset = false)
    (ht : presetBit c.stoptimeImpl c.stoptimePreset = false) (hm : presetBit c.mprvenImpl c.mprvenPreset = false) :
    Dcsr.reset c = {} := by
  simp only [Dcsr.reset, hc, ht, hm]

/-- A reset with the request armed, on a hart that halts in it, ends in Debug Mode with the reset value of `dcsr` but for
`cause` (70_reset_and_hazards.md R202). -/
theorem resetEvent_armed {s : State} (ha : s.resethaltArmed = true) (ho : s.cfg.resetHaltByOrder = false) :
    s.resetEvent.debugMode = true ∧ s.resetEvent.nmiPending = s.nmiPending ∧
    s.resetEvent.dcsr = { Dcsr.reset s.cfg with cause := causeCode s.cfg .resethaltreq } := by
  have he : s.resetEvent = s.resetCore.enterDebug .resethaltreq s.resetCore.base.pc := by
    simp [State.resetEvent, State.resetCore, ha, ho]
  rw [he]
  refine ⟨rfl, rfl, ?_⟩
  simp [State.resetCore, Dcsr.reset]

end Sys2Proof.Machine

namespace Sys2Proof.Claims

open Sys2Proof.Machine

/-- Settles O12: under a legal layout no field reaches into another, so each reads back as packed. -/
theorem dcsrFieldsSurvivePacking : Obligations.DcsrFieldsSurvivePacking := fun _ _ _ _ hl =>
  ⟨unpackDcsr_packDcsr hl, extractLsb'_packDcsr hl, getLsbD_packDcsr_bit hl⟩

/-- Settles O15: the stored pair is what `prvLegalize` makes of the written one, under both policies. -/
theorem writtenModeIsSupported : Obligations.WrittenModeIsSupported := by
  refine ⟨supported_iff, fun s w m hm => ?_⟩
  rw [savedMode_writeCsr_dcsr] at hm
  subst hm
  exact ⟨supported_prvLegalize _ _ _, fun hp => prvLegalize_toM hp _ _, prvLegalize_allowed⟩

/-- Settles O16: on XLEN-bit values clearing the low bits is all that makes an instruction address. -/
theorem dpcWriteIsLegalized : Obligations.DpcWriteIsLegalized := by
  intro c w hw
  obtain ⟨h0, h1⟩ := IsInstrAddress.lowBits (instrAddress_dpcLegalize c w)
  rw [← instrAddress_of_fits hw]
  exact ⟨h0, h1, dpcLegalize_of_valid, validAddress_dpcLegalize, fun hp => dpcLegalize_clearLow hp w⟩

/-- Settles O44: `dcsr` is its reset value, but for `cause` where the reset halts. -/
theorem dcsrReadsAfterReset : Obligations.DcsrReadsAfterReset := by
  intro c hl hv hc ht hm
  have hr := reset_eq_of_presets hc ht hm
  refine ⟨?_, rfl, ?_⟩
  · rw [readCsr_dcsr_of_resetFields (s := State.resetOf c) hl hv rfl hr]
    decide
  · rintro s rfl hn ha ho
    obtain ⟨hd, hnmi, hdcsr⟩ := resetEvent_armed ha ho
    rw [hr] at hdcsr
    refine ⟨_, rfl, hd, ?_⟩
    rw [readCsr_dcsr_of_resetFields (by simpa using hl) (by simpa using hv) (hnmi.trans hn) hdcsr]
    cases h3 : s.cfg.resethaltAs3 with
    | true =>
      simp only [causeCode, h3, if_true]
      decide
    | false =>
      simp only [causeCode, h3, Bool.false_eq_true, if_false]
      decide

/-- Settles O51: bit 3 is the signal, the other bits are those of fields the event leaves alone. -/
theorem nmipFollowsTheInput : Obligations.NmipFollowsTheInput := by
  intro s b hl
  refine ⟨_, rfl, ?_, ?_, rfl⟩
  · simp only [State.dcsrBits, State.nmip, hl]
    exact getLsbD_packDcsr_bit (lsb := DcsrLayout.standard.nmip) DcsrLayout.standard_wf
  · simp only [State.dcsrBits, State.nmip, hl]
    exact packDcsr_and_not_nmip _ _ _ _

end Sys2Proof.Claims

/-! Proofs of `DebugRegistersAreStableWhileRunning`, `CauseChangesOnlyOnEntry`, `RecentAddressesAreKept` and
`RunningDpcReadReturnsRecentAddress`. A step outside Debug Mode brings the hart to a running state with the registers it had,
which it then may leave by an entry into Debug Mode at its `pc`; a step in Debug Mode keeps `cause` and the noted addresses, or
resumes. -/

namespace Sys2Proof.Machine

open Claims (ResetNext)

/-! ### The kinds of steps -/

/-- A host move or a platform input: an event that is no step of the hart and no reset. -/
def Event.IsMove (e : Event) : Prop := (∀ inputs, e ≠ .hart inputs) ∧ e ≠ .reset

/-- What a step is: a reset, where that is the next event, or else a step of the hart or a move. -/
inductive StepKind (s : State) : State → Prop where
  | reset (rest : List Event) (hr : ResetNext s) : StepKind s (s.setEnv rest).resetEvent
  | hart {t : State} (env : List Event) (inputs : HartInputs) (hr : ¬ ResetNext s)
      (h : (s.setEnv env).hartStep inputs = .next t) : StepKind s t
  | move {t : State} (e : Event) (rest : List Event) (hr : ¬ ResetNext s) (hm : e.IsMove)
      (h : (s.setEnv rest).applyEvent e = .next t) : StepKind s t

theorem step_kind {s t : State} (h : step s = .next t) : StepKind s t := by
  obtain ⟨-, -, h⟩ := step_next h
  unfold State.advance at h
  split at h
  · rename_i he
    exact .hart s.env _ (by simp [ResetNext, he]) h
  · rename_i e rest he
    by_cases hreset : e = .reset
    · subst hreset
      simp only [Event.waits, Bool.and_false, Bool.false_eq_true, if_false] at h
      cases h
      exact .reset rest (by simp [ResetNext, he])
    · have hr : ¬ ResetNext s := by simpa [ResetNext, he] using hreset
      split at h
      · exact .hart s.env _ hr h
      · by_cases hhart : ∃ inputs, e = .hart inputs
        · obtain ⟨inputs, rfl⟩ := hhart
          exact .hart rest inputs hr h
        · exact .move e rest hr ⟨not_exists.mp hhart, hreset⟩ h

/-! ### Steps in Debug Mode -/

/-- What a step in Debug Mode keeps: `cause`, and unless it resumes, the noted addresses. -/
structure HaltedKeeps (s t : State) : Prop where
  cause   : t.dcsr.cause = s.dcsr.cause
  history : (t.debugMode = true ∧ t.pcHistory = s.pcHistory) ∨ (t.debugMode = false ∧ t.pcHistory = [])

section halted
variable {s t : State}

theorem haltedKeeps_of_eq (hd : s.debugMode = true) (hm : t.debugMode = s.debugMode)
    (hc : t.dcsr.cause = s.dcsr.cause) (hp : t.pcHistory = s.pcHistory) : HaltedKeeps s t :=
  ⟨hc, .inl ⟨hm.trans hd, hp⟩⟩

/-- What was done before kept both. -/
theorem HaltedKeeps.after {u : State} (h : HaltedKeeps u t) (hc : u.dcsr.cause = s.dcsr.cause)
    (hp : u.pcHistory = s.pcHistory) : HaltedKeeps s t := ⟨h.cause.trans hc, hp ▸ h.history⟩

theorem haltedKeeps_baseInstr (hd : s.debugMode = true) (bytes : List Byte) (n : Option Nat) :
    HaltedKeeps s (s.baseInstr bytes n) := by
  rcases baseInstr_cases s bytes n with ⟨-, h⟩ | h <;> rw [h] <;> exact haltedKeeps_of_eq hd rfl rfl rfl

theorem haltedKeeps_raise (hd : s.debugMode = true) (e : Exc) : HaltedKeeps s (s.raise e) := by
  rcases raise_cases s e with ⟨-, h⟩ | ⟨-, h⟩ <;> rw [h] <;> exact haltedKeeps_of_eq hd rfl rfl rfl

/-- A write of one of the four registers: `cause` is read-only (10_state.md R23). -/
theorem haltedKeeps_writeCsr (hd : s.debugMode = true) (r : DebugCsr) (w : Word) : HaltedKeeps s (s.writeCsr r w) := by
  cases r <;> exact haltedKeeps_of_eq hd rfl rfl rfl

theorem haltedKeeps_startProgbuf (hd : s.debugMode = true) (p : Option (List Byte)) :
    HaltedKeeps s (s.startProgbuf p) := by
  cases p <;> exact haltedKeeps_of_eq hd rfl rfl rfl

theorem haltedKeeps_resume (s : State) : HaltedKeeps s s.resume := ⟨rfl, .inr ⟨rfl, rfl⟩⟩

theorem haltedKeeps_execShape (hd : s.debugMode = true) (h : ExecShape s t) : HaltedKeeps s t := by
  cases h with
  | base bytes n => exact haltedKeeps_baseInstr hd bytes n
  | illegal instr => exact haltedKeeps_raise hd _
  | breakpoint hf => simp [hd] at hf
  | csrRead r rd => exact haltedKeeps_of_eq hd rfl rfl rfl
  | csrWrite r rd w => exact (haltedKeeps_writeCsr (s := (s.tick true false).setReg rd (s.readCsr r)) hd r w).after rfl rfl
  | enter hf => simp [hd] at hf
  | endProgbuf => exact haltedKeeps_of_eq hd rfl rfl rfl
  | resume => exact (haltedKeeps_resume (s.tick true false)).after rfl rfl

/-- What follows the Program Buffer's instruction changes `dpc` alone. -/
theorem HaltedKeeps.closeProgbuf (h : HaltedKeeps s t) : HaltedKeeps s t.closeProgbuf := by
  rcases closeProgbuf_cases t with hc | ⟨-, -, hc⟩
  · rwa [hc]
  · rw [hc]
    exact ⟨h.cause, h.history⟩

theorem HaltedKeeps.freshScratch (h : HaltedKeeps s.freshScratch t) : HaltedKeeps s t :=
  h.after (by rw [(freshScratch_eq s).1]) (by rw [(freshScratch_eq s).1])

theorem freshScratch_debugMode (s : State) : s.freshScratch.debugMode = s.debugMode := by
  rw [(freshScratch_eq s).1]

theorem haltedKeeps_haltedStep (hd : s.debugMode = true) (h : s.haltedStep = .next t) : HaltedKeeps s t := by
  have hf : s.freshScratch.debugMode = true := by rw [freshScratch_debugMode, hd]
  rcases haltedStep_next h with rfl | ⟨-, ⟨i, -, hi⟩ | ⟨n, rfl⟩⟩
  · exact haltedKeeps_of_eq hd rfl rfl rfl
  · exact (haltedKeeps_execShape hf (exec_shape hi)).freshScratch
  · exact (haltedKeeps_baseInstr hf _ n).freshScratch

theorem haltedKeeps_progbufInstr {bytes : List Byte} (hd : s.debugMode = true) (h : s.progbufInstr bytes = .next t) :
    HaltedKeeps s t := by
  rcases progbufInstr_next h with ⟨i, rest, -, hi⟩ | ⟨n, rfl⟩ | rfl
  · exact (haltedKeeps_execShape (s := s.setProgbuf (some rest)) hd (exec_shape hi)).after rfl rfl
  · exact (haltedKeeps_baseInstr (s := s.setProgbuf (some (bytes.drop n))) hd _ _).after rfl rfl
  · exact haltedKeeps_raise hd _

theorem haltedKeeps_hartStep {inputs : HartInputs} (hd : s.debugMode = true) (h : s.hartStep inputs = .next t) :
    HaltedKeeps s t := by
  rw [State.hartStep, if_pos hd] at h
  obtain ⟨u, hu, rfl⟩ := mapNext_eq_next h
  have hk : HaltedKeeps s u := by
    rcases debugStep_next hu with ⟨-, hh⟩ | ⟨-, rfl⟩ | ⟨bytes, v, -, hv, rfl⟩
    · exact haltedKeeps_haltedStep hd hh
    · have hend : HaltedKeeps s ((s.tick false false).setProgbuf none) := haltedKeeps_of_eq hd rfl rfl rfl
      exact hend.closeProgbuf
    · exact (haltedKeeps_progbufInstr hd hv).closeProgbuf
  exact ⟨hk.cause, hk.history⟩

theorem haltedKeeps_move {e : Event} (hd : s.debugMode = true) (hm : e.IsMove) (h : s.applyEvent e = .next t) :
    HaltedKeeps s t := by
  cases e with
  | hart inputs => exact absurd rfl (hm.1 inputs)
  | reset => exact absurd rfl hm.2
  | resumeReq =>
    rw [State.applyEvent, if_pos hd] at h
    cases h
    exact haltedKeeps_resume s
  | abstractRead r p =>
    obtain ⟨-, rfl⟩ := abstractRead_next h
    exact (haltedKeeps_startProgbuf (s := s.commandBoundary.returnToDebugger (s.commandBoundary.readCsr r)) hd p).after
      rfl rfl
  | abstractWrite r w p =>
    obtain ⟨-, -, rfl⟩ := abstractWrite_next h
    have hw := haltedKeeps_writeCsr (s := s.commandBoundary) hd r w
    have hwd : (s.commandBoundary.writeCsr r w).debugMode = true := by cases r <;> exact hd
    exact (haltedKeeps_startProgbuf hwd p).after hw.cause (by cases r <;> rfl)
  | abstractReadDpcRunning => simp [State.applyEvent, State.abstractReadDpcRunning, hd] at h
  | abstractWriteDpcRunning w => simp [State.applyEvent, State.abstractWriteDpcRunning, hd] at h
  | execProgbuf instrs =>
    rw [State.applyEvent, if_pos hd] at h
    cases h
    exact (haltedKeeps_startProgbuf (s := s.commandBoundary) hd (some instrs)).after rfl rfl
  | haltReq | clearHaltReq | armResetHaltReq | disarmResetHaltReq | nmi _ | mtimeAdvance _ | haltGroup _ | interrupt _ =>
    cases h
    exact haltedKeeps_of_eq hd rfl rfl rfl

/-- Every step in Debug Mode but a reset keeps `cause`, and unless it resumes, the noted addresses. -/
theorem step_halted (hd : s.debugMode = true) (hr : ¬ ResetNext s) (h : step s = .next t) : HaltedKeeps s t := by
  cases step_kind h with
  | reset rest hr' => exact absurd hr' hr
  | hart env inputs _ hh =>
    exact (haltedKeeps_hartStep (s := s.setEnv env) hd hh).after rfl rfl
  | move e rest _ hm he =>
    exact (haltedKeeps_move (s := s.setEnv rest) hd hm he).after rfl rfl

end halted

/-! ### Steps outside Debug Mode -/

/-- The four registers, and being in Debug Mode or not, are those from before. -/
structure SameDebugRegs (s v : State) : Prop where
  dcsr      : v.dcsr = s.dcsr
  dpc       : v.dpc = s.dpc
  dscratch0 : v.dscratch0 = s.dscratch0
  dscratch1 : v.dscratch1 = s.dscratch1
  debugMode : v.debugMode = s.debugMode

theorem sameDebugRegs_setEnv (s : State) (env : List Event) : SameDebugRegs s (s.setEnv env) :=
  ⟨rfl, rfl, rfl, rfl, rfl⟩

theorem SameDebugRegs.trans {s u v : State} (h : SameDebugRegs s u) (h' : SameDebugRegs u v) : SameDebugRegs s v :=
  ⟨h'.dcsr.trans h.dcsr, h'.dpc.trans h.dpc, h'.dscratch0.trans h.dscratch0, h'.dscratch1.trans h.dscratch1,
    h'.debugMode.trans h.debugMode⟩

@[simp] theorem State.baseInstr_debugMode (s : State) (bytes : List Byte) (n : Option Nat) :
    (s.baseInstr bytes n).debugMode = s.debugMode := by
  rcases baseInstr_cases s bytes n with ⟨-, h⟩ | h <;> simp [h]

@[simp] theorem State.raise_debugMode (s : State) (e : Exc) : (s.raise e).debugMode = s.debugMode := by
  rcases raise_cases s e with ⟨-, h⟩ | ⟨-, h⟩ <;> simp [h]

/-- How a step outside Debug Mode ends in a running state `v`: there, or by an entry into Debug Mode at its `pc`. -/
inductive EndsFrom (v : State) : State → Prop where
  | running : EndsFrom v v
  | entered (r : Reason) : EndsFrom v (v.enterDebug r v.base.pc)

theorem EndsFrom.lateRequests {v t : State} (h : EndsFrom v t) (inputs : HartInputs) :
    EndsFrom (v.lateRequests inputs) (t.lateRequests inputs) := by
  cases h with
  | running => exact .running
  | entered r => exact .entered r

/-- An instruction outside Debug Mode, executed at `pc`: its address is noted, and it may enter Debug Mode there. -/
theorem executeAtPc_endsFrom {s u : State} (hd : s.debugMode = false) (h : s.executeAtPc = .next u) :
    ∃ v, SameDebugRegs s v ∧ v.pcHistory = s.recentAddresses ∧ EndsFrom v u := by
  have hshape := executeAtPc_shape h
  cases hu : u.debugMode with
  | false =>
    have hrun := hshape.running hd hu
    exact ⟨u, by rw [hrun]; exact ⟨rfl, rfl, rfl, rfl, rfl⟩, by rw [hrun]; rfl, .running⟩
  | true =>
    cases hshape with
    | base bytes n => simp [hd] at hu
    | illegal instr => simp [hd] at hu
    | breakpoint => simp [hd] at hu
    | csrRead r rd ha => simp [State.csrAccessible, hd] at ha
    | csrWrite r rd w ha => simp [State.csrAccessible, hd] at ha
    | enter => exact ⟨s.notePc.tick true true, ⟨rfl, rfl, rfl, rfl, rfl⟩, rfl, .entered .ebreak⟩
    | endProgbuf hf => simp [hd] at hf
    | resume hf => simp [hd] at hf

/-- The end of a step outside Debug Mode changes neither the registers nor the base hart, before an entry into Debug Mode. -/
theorem EndsFrom.afterInstr {v u : State} (h : EndsFrom v u) (inputs : HartInputs) :
    ∃ v', SameDebugRegs v v' ∧ v'.pcHistory = v.pcHistory ∧ EndsFrom v' (u.afterInstr inputs) := by
  rcases afterInstr_cases u inputs with ⟨-, ha⟩ | ⟨hud, u', hu', ha⟩
  · exact ⟨v.lateRequests inputs, ⟨rfl, rfl, rfl, rfl, rfl⟩, rfl, ha ▸ h.lateRequests inputs⟩
  · cases h with
    | entered r => cases hud
    | running =>
      refine ⟨u', by rw [hu']; exact ⟨rfl, rfl, rfl, rfl, rfl⟩, by rw [hu']; rfl, ?_⟩
      rcases ha with ha | ⟨-, r, -, ha⟩
      · exact ha ▸ .running
      · exact ha ▸ .entered r

/-! ### The noted addresses -/

@[simp] theorem mem_recentAddresses {s : State} {a : Word} :
    a ∈ s.recentAddresses ↔ a = s.base.pc ∨ a ∈ s.pcHistory := List.mem_cons

/-- A due jump forgets no address (10_state.md R43). -/
theorem mem_takeJump_of_mem {s : State} {a : Word} (h : a ∈ s.recentAddresses) : a ∈ s.takeJump.recentAddresses := by
  rcases takeJump_cases s with hj | ⟨w, -, hj⟩ <;> rw [hj]
  · exact h
  · exact List.mem_cons_of_mem _ h

/-- A due jump notes the `pc` it leaves. -/
theorem mem_of_mem_takeJump_pcHistory {s : State} {a : Word} (h : a ∈ s.takeJump.pcHistory) : a ∈ s.recentAddresses := by
  rcases takeJump_cases s with hj | ⟨w, -, hj⟩ <;> rw [hj] at h
  · exact List.mem_cons_of_mem _ h
  · exact h

theorem sameDebugRegs_takeJump (s : State) : SameDebugRegs s s.takeJump := by
  rcases takeJump_cases s with hj | ⟨w, -, hj⟩ <;> rw [hj] <;> exact ⟨rfl, rfl, rfl, rfl, rfl⟩

theorem sameDebugRegs_takeInterrupt (s : State) : SameDebugRegs s s.takeInterrupt := ⟨rfl, rfl, rfl, rfl, rfl⟩

theorem takeJump_irqReady (s : State) : s.takeJump.irqReady = s.irqReady := by
  rcases takeJump_cases s with hj | ⟨w, -, hj⟩ <;> rw [hj]

theorem takeJump_interruptsMasked (s : State) : s.takeJump.interruptsMasked = s.interruptsMasked := by
  simp only [State.interruptsMasked, (sameDebugRegs_takeJump s).dcsr, takeJump_debugMode]

theorem takeJump_setEnv (s : State) (env : List Event) : (s.setEnv env).takeJump = s.takeJump.setEnv env := by
  unfold State.takeJump
  rw [State.setEnv_pendingJump]
  split <;> rfl

/-- The addresses noted on the way to the running state `v`: none forgotten, none noted but the `pc` from before, that a due
jump gave, and that an interrupt gave (10_state.md R42, 70_reset_and_hazards.md R217). -/
structure NotesFrom (s v : State) : Prop where
  kept  : ∀ a ∈ s.recentAddresses, a ∈ v.recentAddresses
  noted : ∀ a ∈ v.pcHistory, a ∈ s.recentAddresses ∨ a = s.takeJump.base.pc ∨
    (s.irqReady = true ∧ s.interruptsMasked = false ∧ a = s.takeJump.takeInterrupt.base.pc)

section notes
variable {s v : State}

/-- Nothing executed, at most a due jump was made. -/
theorem notesFrom_takeJump (hpc : v.base.pc = s.takeJump.base.pc) (hv : v.pcHistory = s.takeJump.pcHistory) :
    NotesFrom s v where
  kept a ha := by simpa [hpc, hv] using mem_takeJump_of_mem ha
  noted a ha := .inl (mem_of_mem_takeJump_pcHistory (hv ▸ ha))

/-- The instruction after a due jump was executed, or an interrupt taken in its place. -/
theorem notesFrom_executed (hv : v.pcHistory = s.takeJump.recentAddresses) : NotesFrom s v where
  kept a ha := List.mem_cons_of_mem _ (hv ▸ mem_takeJump_of_mem ha)
  noted a ha := by
    rcases List.mem_cons.mp (hv ▸ ha) with h | h
    · exact .inr (.inl h)
    · exact .inl (mem_of_mem_takeJump_pcHistory h)

/-- An interrupt was taken, and its handler's first instruction executed. -/
theorem notesFrom_handler (hi : s.irqReady = true) (hm : s.interruptsMasked = false)
    (hv : v.pcHistory = s.takeJump.takeInterrupt.recentAddresses) : NotesFrom s v where
  kept a ha := by
    rw [mem_recentAddresses, hv]
    exact .inr (List.mem_cons_of_mem _ (mem_takeJump_of_mem ha))
  noted a ha := by
    rcases List.mem_cons.mp (hv ▸ ha) with h | h
    · exact .inr (.inr ⟨hi, hm, h⟩)
    · exact (notesFrom_executed (v := s.takeJump.takeInterrupt) rfl).noted a h

theorem NotesFrom.of_same (hpc : v.base.pc = s.base.pc) (hv : v.pcHistory = s.pcHistory) : NotesFrom s v where
  kept a ha := by simpa [hpc, hv] using ha
  noted a ha := .inl (List.mem_cons_of_mem _ (hv ▸ ha))

theorem NotesFrom.of_setEnv {env : List Event} (h : NotesFrom (s.setEnv env) v) : NotesFrom s v where
  kept := h.kept
  noted a ha := by
    have hn := h.noted a ha
    rw [takeJump_setEnv] at hn
    exact hn

end notes

/-- Where a step of the hart outside Debug Mode gets before it ends: a running state with the registers from before. -/
theorem runStep_endsFrom {s t : State} {inputs : HartInputs} (hd : s.debugMode = false)
    (h : s.runStep inputs = .next t) : ∃ v, SameDebugRegs s v ∧ NotesFrom s v ∧ EndsFrom v t := by
  have hj := sameDebugRegs_takeJump s
  have hjd : s.takeJump.debugMode = false := hj.debugMode.trans hd
  have hint := hj.trans (sameDebugRegs_takeInterrupt s.takeJump)
  rcases runStep_next h with ⟨r, -, rfl⟩ | ⟨u, hu, rfl⟩ | ⟨hi, hm, htaken⟩
  · exact ⟨(s.takeJump.tick false false).lateRequests inputs, hj.trans ⟨rfl, rfl, rfl, rfl, rfl⟩,
      notesFrom_takeJump rfl rfl, .entered r⟩
  · obtain ⟨v, hv, hn, he⟩ := executeAtPc_endsFrom hjd hu
    obtain ⟨v', hv', hn', he'⟩ := he.afterInstr inputs
    exact ⟨v', (hj.trans hv).trans hv', notesFrom_executed (hn'.trans hn), he'⟩
  · rw [takeJump_irqReady] at hi
    rw [takeJump_interruptsMasked] at hm
    rcases htaken with rfl | ⟨u, hu, rfl⟩
    · obtain ⟨v', hv', hn', he'⟩ := (EndsFrom.running (v := s.takeJump.takeInterrupt)).afterInstr inputs
      exact ⟨v', hint.trans hv', notesFrom_executed hn', he'⟩
    · obtain ⟨v, hv, hn, he⟩ := executeAtPc_endsFrom (s := s.takeJump.takeInterrupt) hjd hu
      obtain ⟨v', hv', hn', he'⟩ := he.afterInstr inputs
      exact ⟨v', (hint.trans hv).trans hv', notesFrom_handler hi hm (hn'.trans hn), he'⟩

/-- A move outside Debug Mode changes neither the registers nor the base hart nor the noted addresses. -/
theorem move_running {s t : State} {e : Event} (hd : s.debugMode = false) (hm : e.IsMove)
    (h : s.applyEvent e = .next t) : SameDebugRegs s t ∧ t.base = s.base ∧ t.pcHistory = s.pcHistory := by
  cases e with
  | hart inputs => exact absurd rfl (hm.1 inputs)
  | reset => exact absurd rfl hm.2
  | resumeReq => simp [State.applyEvent, hd] at h
  | abstractRead r p => simp [State.applyEvent, State.abstractRead, hd] at h
  | abstractWrite r w p => simp [State.applyEvent, State.abstractWrite, hd] at h
  | abstractReadDpcRunning =>
    simp only [State.applyEvent, State.abstractReadDpcRunning] at h
    split at h <;> cases h
    exact ⟨⟨rfl, rfl, rfl, rfl, rfl⟩, rfl, rfl⟩
  | abstractWriteDpcRunning w =>
    simp only [State.applyEvent, State.abstractWriteDpcRunning] at h
    split at h <;> cases h
    exact ⟨⟨rfl, rfl, rfl, rfl, rfl⟩, rfl, rfl⟩
  | execProgbuf instrs => simp [State.applyEvent, hd] at h
  | haltReq | clearHaltReq | armResetHaltReq | disarmResetHaltReq | nmi _ | mtimeAdvance _ | haltGroup _ | interrupt _ =>
    cases h
    exact ⟨⟨rfl, rfl, rfl, rfl, rfl⟩, rfl, rfl⟩

/-- A reset ends in the state it leaves, or in an entry into Debug Mode from there. -/
theorem resetEvent_endsFrom (s : State) : EndsFrom s.resetCore s.resetEvent := by
  rcases resetEvent_cases s with h | ⟨-, -, h⟩ <;> rw [h]
  · exact .running
  · exact .entered _

/-- A reset of a running hart notes its `pc` (70_reset_and_hazards.md R217). -/
theorem notesFrom_resetCore {s : State} (hd : s.debugMode = false) : NotesFrom s s.resetCore := by
  have hv : s.resetCore.pcHistory = s.recentAddresses := by simp [State.resetCore, State.recentAddresses, hd]
  exact ⟨fun a ha => List.mem_cons_of_mem _ (hv ▸ ha), fun a ha => .inl (hv ▸ ha)⟩

/-- Where any step outside Debug Mode gets before it ends; without a reset, with the registers from before. -/
theorem step_running {s t : State} (hd : s.debugMode = false) (h : step s = .next t) :
    ∃ v, (¬ ResetNext s → SameDebugRegs s v) ∧ NotesFrom s v ∧ EndsFrom v t := by
  cases step_kind h with
  | reset rest hr =>
    exact ⟨_, fun hn => absurd hr hn, (notesFrom_resetCore (s := s.setEnv rest) hd).of_setEnv, resetEvent_endsFrom _⟩
  | hart env inputs hr hh =>
    rw [State.hartStep, State.setEnv_debugMode, hd, if_neg Bool.false_ne_true] at hh
    obtain ⟨v, hv, hn, he⟩ := runStep_endsFrom (s := s.setEnv env) hd hh
    exact ⟨v, fun _ => (sameDebugRegs_setEnv s _).trans hv, hn.of_setEnv, he⟩
  | move e rest hr hm he =>
    obtain ⟨hv, hbase, hhist⟩ := move_running (s := s.setEnv rest) hd hm he
    exact ⟨t, fun _ => (sameDebugRegs_setEnv s _).trans hv, .of_same (by rw [hbase]; rfl) hhist,
      .running⟩

/-- Without a reset, a step that ends outside Debug Mode leaves `dcsr` and `dpc` as they were. -/
theorem SameDebugRegs.of_endsFrom_running {s v t : State} (h : SameDebugRegs s v) (he : EndsFrom v t)
    (ht : t.debugMode = false) : SameDebugRegs s t := by
  cases he with
  | running => exact h
  | entered r => cases ht

theorem EndsFrom.mem_recentAddresses {v t : State} (h : EndsFrom v t) {a : Word} (ha : a ∈ v.recentAddresses) :
    a ∈ t.recentAddresses := by
  cases h with
  | running => exact ha
  | entered r => exact List.mem_cons_of_mem _ ha

/-- An entry into Debug Mode notes the address it records in `dpc`. -/
theorem EndsFrom.of_mem_pcHistory {v t : State} (h : EndsFrom v t) {a : Word} (ha : a ∈ t.pcHistory) :
    a ∈ v.pcHistory ∨ (t.debugMode = true ∧ a = t.dpc) := by
  cases h with
  | running => exact .inl ha
  | entered r =>
    rcases List.mem_cons.mp ha with h | h
    · exact .inr ⟨rfl, h⟩
    · exact .inl h

/-- In Debug Mode only a resume forgets a noted address, and only a reset that halts the hart again notes one, its `pc`. -/
theorem step_halted_notes {s t : State} (hd : s.debugMode = true) (h : step s = .next t) :
    (t.debugMode = true ∨ ResetNext s → ∀ a ∈ s.pcHistory, a ∈ t.pcHistory) ∧
    ∀ a ∈ t.pcHistory, a ∈ s.pcHistory ∨ (ResetNext s ∧ t.debugMode = true ∧ a = t.dpc) := by
  by_cases hr : ResetNext s
  · cases step_kind h with
    | reset rest =>
      have hcore : (s.setEnv rest).resetCore.pcHistory = s.pcHistory := by simp [State.resetCore, hd]
      have hends := resetEvent_endsFrom (s.setEnv rest)
      refine ⟨fun _ a ha => ?_, fun a ha => ?_⟩
      · rw [← hcore] at ha
        rcases resetEvent_cases (s.setEnv rest) with he | ⟨-, -, he⟩ <;> rw [he]
        · exact ha
        · exact List.mem_cons_of_mem _ ha
      · rw [← hcore]
        exact (hends.of_mem_pcHistory ha).imp_right fun h => ⟨hr, h⟩
    | hart env inputs hn => exact absurd hr hn
    | move e rest hn => exact absurd hr hn
  · rcases (step_halted hd hr h).history with ⟨ht, hh⟩ | ⟨ht, hh⟩
    · exact ⟨fun _ a ha => hh ▸ ha, fun a ha => .inl (hh ▸ ha)⟩
    · exact ⟨fun hor => by simp [ht, hr] at hor, fun a ha => by simp [hh] at ha⟩

end Sys2Proof.Machine

namespace Sys2Proof.Claims

open Sys2Proof.Machine

/-- Settles O36: the step gets to a running state with the registers from before, and only the entry into Debug Mode that may
follow writes any of them. -/
theorem debugRegistersAreStableWhileRunning : Obligations.DebugRegistersAreStableWhileRunning := by
  intro s t h hd hr
  obtain ⟨v, hsame, -, he⟩ := step_running hd h
  have hv := hsame hr
  have hrun (ht : t.debugMode = false) : t.dcsr = s.dcsr ∧ t.dpc = s.dpc :=
    have hst := hv.of_endsFrom_running he ht
    ⟨hst.dcsr, hst.dpc⟩
  cases he with
  | running => exact ⟨by rw [hv.dcsr], hv.dscratch0, hv.dscratch1, hrun⟩
  | entered r => exact ⟨by rw [State.enterDebug_dcsr, hv.dcsr], hv.dscratch0, hv.dscratch1, hrun⟩

/-- Settles O37: in Debug Mode `cause` is kept, and outside only an entry into Debug Mode writes it. -/
theorem causeChangesOnlyOnEntry : Obligations.CauseChangesOnlyOnEntry := by
  intro s t h hr hc
  cases hd : s.debugMode with
  | true => exact absurd (step_halted hd hr h).cause hc
  | false =>
    refine ⟨rfl, ?_⟩
    obtain ⟨-, -, -, hrun⟩ := debugRegistersAreStableWhileRunning s t h hd hr
    cases ht : t.debugMode with
    | true => rfl
    | false => exact absurd (congrArg Dcsr.cause (hrun ht).1) hc

/-- Settles O48: the index is cut to the length of the list, so that an address of the list is returned. -/
theorem runningDpcReadReturnsRecentAddress : Obligations.RunningDpcReadReturnsRecentAddress := by
  intro s hd hc
  have hlt : Config.recentIndex s.draws % s.recentAddresses.length < s.recentAddresses.length :=
    Nat.mod_lt _ (Nat.succ_pos _)
  refine ⟨_, _, by simp only [State.applyEvent, State.abstractReadDpcRunning, hd, hc]; rfl, rfl, ?_, rfl⟩
  rw [← mem_recentAddresses, List.getD_eq_getElem _ _ hlt]
  exact List.getElem_mem hlt

/-- Settles O49: outside Debug Mode by what is noted on the way to the running state in which the step ends; in Debug Mode
only a resume forgets, and only a reset that halts again notes. -/
theorem recentAddressesAreKept : Obligations.RecentAddressesAreKept := by
  intro s t h
  cases hd : s.debugMode with
  | true =>
    obtain ⟨hkept, hnoted⟩ := step_halted_notes hd h
    exact ⟨nofun, fun _ => hkept, nofun, fun _ => hnoted⟩
  | false =>
    obtain ⟨v, -, hn, he⟩ := step_running hd h
    refine ⟨fun _ a ha => he.mem_recentAddresses (hn.kept a ha), nofun, fun _ a ha => ?_, nofun⟩
    rcases he.of_mem_pcHistory ha with hv | hentered
    · rcases hn.noted a hv with hs | hj | hi
      · exact .inl hs
      · exact .inr (.inl hj)
      · exact .inr (.inr (.inl hi))
    · exact .inr (.inr (.inr hentered))

end Sys2Proof.Claims

/-! Proof of `MprvenGatesMprv`: the effective `MPRV`, the privilege of loads and stores and the mode instructions execute in,
each in Debug Mode and outside (20_memory.md R73, R74, 60_exceptions.md R183). -/

namespace Sys2Proof.Machine

section privilege
variable {s : State}

/-- In Debug Mode `mprven` gates `mstatus.MPRV` (20_memory.md R74). -/
theorem State.effectiveMprv_debug (hd : s.debugMode = true) : s.effectiveMprv = (s.dcsr.mprven && s.base.mprv) :=
  if_pos hd

/-- Outside Debug Mode `mprven` has no effect (20_memory.md R74). -/
theorem State.effectiveMprv_running (hd : s.debugMode = false) : s.effectiveMprv = s.base.mprv :=
  if_neg (Bool.eq_false_iff.mp hd)

theorem State.memPriv_of_effectiveMprv (hm : s.effectiveMprv = true) : s.memPriv = s.base.mpp := if_pos hm

theorem State.memPriv_of_not_effectiveMprv (hm : s.effectiveMprv = false) : s.memPriv = s.execPriv :=
  if_neg (Bool.eq_false_iff.mp hm)

/-- In Debug Mode the base hart is shown M-mode with `virt` 0 (60_exceptions.md R183). -/
theorem State.execBase_debug (hd : s.debugMode = true) : s.execBase = { s.base with priv := 3, virt := false } := by
  simp [State.execBase, State.execPriv, State.execVirt, hd]

/-- Outside Debug Mode the base hart is shown its own registers and mode. -/
theorem State.execBase_running (hd : s.debugMode = false) : s.execBase = s.base := by
  simp [State.execBase, State.execPriv, State.execVirt, hd]

end privilege

end Sys2Proof.Machine

namespace Sys2Proof.Claims

open Sys2Proof.Machine

/-- Settles O38: the gate and the mode shown to the base hart by cases on Debug Mode, the privilege of loads and stores by
cases on the effective `MPRV`. -/
theorem mprvenGatesMprv : Obligations.MprvenGatesMprv := by
  intro s
  refine ⟨?gate, State.memPriv_of_effectiveMprv, State.memPriv_of_not_effectiveMprv, ?mode⟩
  case gate =>
    cases hd : s.debugMode with
    | true => simp [State.effectiveMprv_debug hd]
    | false => simp [State.effectiveMprv_running hd]
  case mode =>
    cases hd : s.debugMode with
    | true => exact State.execBase_debug hd
    | false => exact State.execBase_running hd

end Sys2Proof.Claims

/-! Proofs of `DecodeOfEncode`, `DecodedWordsMatchTheOpcodeMap` and `KnownWordsDecode` (30_encoding.md R95 to R99): a word is
its bytes side by side and, in the SYSTEM opcode, its I-type fields; so decoding undoes encoding, and the other way round. -/

namespace Sys2Proof

/-! ### The fields of an I-type word (30_encoding.md R96) -/

section iType
variable (csr : CsrAddr) (rs1 : BitVec 5) (f : BitVec 3) (rd : Reg)

/-- An I-type word is its five fields side by side. -/
theorem iType_eq_append : iType csr rs1 f rd = csr ++ rs1 ++ f ++ (BitVec.ofFin rd : BitVec 5) ++ 0b1110011#7 := by
  refine .trans ?_ (BitVec.setWidth_eq _)
  simp only [iType, BitVec.setWidth_append_eq_shiftLeft_setWidth_or, BitVec.shiftLeft_or_distrib, ← BitVec.shiftLeft_add]
  rfl

@[simp] theorem extractLsb'_iType_opcode : (iType csr rs1 f rd).extractLsb' 0 7 = 0b1110011#7 := by
  rw [iType_eq_append]
  exact BitVec.extractLsb'_append_eq_right

@[simp] theorem extractLsb'_iType_rd : (iType csr rs1 f rd).extractLsb' 7 5 = BitVec.ofFin rd := by
  rw [iType_eq_append]
  exact (BitVec.extractLsb'_append_eq_of_le (by decide)).trans BitVec.extractLsb'_append_eq_right

@[simp] theorem extractLsb'_iType_funct3 : (iType csr rs1 f rd).extractLsb' 12 3 = f := by
  rw [iType_eq_append]
  exact (BitVec.extractLsb'_append_eq_of_le (by decide)).trans <|
    (BitVec.extractLsb'_append_eq_of_le (by decide)).trans BitVec.extractLsb'_append_eq_right

@[simp] theorem extractLsb'_iType_rs1 : (iType csr rs1 f rd).extractLsb' 15 5 = rs1 := by
  rw [iType_eq_append]
  exact (BitVec.extractLsb'_append_eq_of_le (by decide)).trans <|
    (BitVec.extractLsb'_append_eq_of_le (by decide)).trans <|
    (BitVec.extractLsb'_append_eq_of_le (by decide)).trans BitVec.extractLsb'_append_eq_right

@[simp] theorem extractLsb'_iType_csr : (iType csr rs1 f rd).extractLsb' 20 12 = csr := by
  rw [iType_eq_append]
  exact (BitVec.extractLsb'_append_eq_of_le (by decide)).trans <|
    (BitVec.extractLsb'_append_eq_of_le (by decide)).trans <|
    (BitVec.extractLsb'_append_eq_of_le (by decide)).trans BitVec.extractLsb'_append_eq_left

end iType

/-- A word of the SYSTEM opcode is put together from its own fields. -/
theorem iType_extractLsb' {w : BitVec 32} (hop : w.extractLsb' 0 7 = 0b1110011#7) :
    iType (w.extractLsb' 20 12) (w.extractLsb' 15 5) (w.extractLsb' 12 3) (w.extractLsb' 7 5).toFin = w := by
  rw [iType_eq_append, ← hop, BitVec.ofFin_toFin,
    BitVec.extractLsb'_append_extractLsb'_eq_extractLsb' (by decide : 20 = 15 + 5),
    BitVec.extractLsb'_append_extractLsb'_eq_extractLsb' (by decide : 15 = 12 + 3),
    BitVec.extractLsb'_append_extractLsb'_eq_extractLsb' (by decide : 12 = 7 + 5),
    BitVec.extractLsb'_append_extractLsb'_eq_extractLsb' (by decide : 7 = 0 + 7)]
  exact BitVec.extractLsb'_eq_self

/-- The same with `funct3` known as a number, as the decoder reads it. -/
theorem iType_of_funct3 {w : BitVec 32} {f : BitVec 3} (hop : w.extractLsb' 0 7 = 0b1110011#7)
    (hf : (w.extractLsb' 12 3).toNat = f.toNat) :
    iType (w.extractLsb' 20 12) (w.extractLsb' 15 5) f (w.extractLsb' 7 5).toFin = w := by
  rw [← BitVec.eq_of_toNat_eq hf]
  exact iType_extractLsb' hop

/-! ### Words -/

/-- Decoding undoes encoding on the words of the 32-bit instructions. -/
theorem decodeWord_encodeWord {i : Instr} (hi : i.length = 4) : decodeWord (encodeWord i) = .ok i := by
  cases i with
  | csrrw | csrrs | csrrc | csrrwi | csrrsi | csrrci => simp [encodeWord, decodeWord]
  | ebreak | dret => decide
  | cEbreak => cases hi

/-- Encoding undoes decoding: each `funct3` names the constructor whose word has it, and `ebreak` and `dret` are one word
each. -/
theorem encodeWord_of_decodeWord {w : BitVec 32} {i : Instr} (h : decodeWord w = .ok i) : encodeWord i = w := by
  unfold decodeWord at h
  split at h
  · cases h
  · rename_i hop
    have hop := not_not.mp hop
    dsimp only at h
    split at h
    case h_4 => cases h
    case h_8 =>
      split at h
      · rename_i hw
        cases h
        exact hw.symm
      · split at h
        · rename_i hw
          cases h
          exact hw.symm
        · cases h
    all_goals
      rename_i hf
      cases h
      exact iType_of_funct3 hop hf

/-- Every instruction's word matches its row of the opcode map. -/
theorem encodeWord_masked (i : Instr) : encodeWord i &&& (matchMask i).2 = (matchMask i).1 := by
  cases i with
  | csrrw rd csr rs1 => exact Laws.OpcodeMap.csrrw rd csr rs1
  | csrrs rd csr rs1 => exact Laws.OpcodeMap.csrrs rd csr rs1
  | csrrc rd csr rs1 => exact Laws.OpcodeMap.csrrc rd csr rs1
  | csrrwi rd csr uimm => exact Laws.OpcodeMap.csrrwi rd csr uimm
  | csrrsi rd csr uimm => exact Laws.OpcodeMap.csrrsi rd csr uimm
  | csrrci rd csr uimm => exact Laws.OpcodeMap.csrrci rd csr uimm
  | ebreak => exact Laws.OpcodeMap.ebreak
  | cEbreak => exact Laws.OpcodeMap.cEbreak
  | dret => exact Laws.OpcodeMap.dret

theorem decodeParcel_eq_ok {p : BitVec 16} {i : Instr} (h : decodeParcel p = .ok i) : i = .cEbreak ∧ p = 0x9002 := by
  unfold decodeParcel at h
  split at h
  · rename_i hp
    cases h
    exact ⟨rfl, hp⟩
  · cases h

/-! ### Bytes (30_encoding.md R95) -/

/-- A word is its four bytes side by side, the lowest address rightmost. -/
theorem wordOf_eq_append (b0 b1 b2 b3 : Byte) : wordOf b0 b1 b2 b3 = b3 ++ b2 ++ b1 ++ b0 := by
  refine .trans ?_ (BitVec.setWidth_eq _)
  rw [BitVec.setWidth_append_append_append_eq_shiftLeft_setWidth_or, wordOf]
  simp only [BitVec.or_comm, BitVec.or_assoc]

/-- A field of a shifted word is a field of the word, further up. -/
theorem extractLsb'_ushiftRight {n : ℕ} (w : BitVec n) (k start len : ℕ) :
    (w >>> k).extractLsb' start len = w.extractLsb' (k + start) len := by
  ext i hi
  simp [Nat.add_assoc]

/-- The bytes that `wordBytes` cuts a word into make the word again. -/
theorem wordOf_extractLsb' (w : BitVec 32) :
    wordOf (w.extractLsb' 0 8) ((w >>> 8).extractLsb' 0 8) ((w >>> 8 >>> 8).extractLsb' 0 8)
      ((w >>> 8 >>> 8 >>> 8).extractLsb' 0 8) = w := by
  simp only [wordOf_eq_append, extractLsb'_ushiftRight, Nat.reduceAdd]
  rw [BitVec.extractLsb'_append_extractLsb'_eq_extractLsb' (by decide : 24 = 16 + 8),
    BitVec.extractLsb'_append_extractLsb'_eq_extractLsb' (by decide : 16 = 8 + 8),
    BitVec.extractLsb'_append_extractLsb'_eq_extractLsb' (by decide : 8 = 0 + 8)]
  exact BitVec.extractLsb'_eq_self

/-- Four bytes whose parcel names the length 4 are decoded as a word. -/
theorem decode_wordBytes_four {w : BitVec 32} {rest : List Byte} (h : instrLength (wordBytes w 4 ++ rest) = some 4) :
    decode (wordBytes w 4 ++ rest) = (decodeWord w).map fun i => (i, rest) := by
  simp only [wordBytes, List.cons_append, List.nil_append, instrLength] at h
  simp only [wordBytes, List.cons_append, List.nil_append, decode, h, wordOf_extractLsb']

/-- The bytes of an instruction begin with a parcel that names its length. -/
theorem instrLength_encode (i : Instr) (rest : List Byte) : instrLength (encode i ++ rest) = some i.length := by
  cases i with
  | csrrw rd csr rs1 => exact Laws.InstrLength.csrrw rd csr rs1 rest
  | csrrs rd csr rs1 => exact Laws.InstrLength.csrrs rd csr rs1 rest
  | csrrc rd csr rs1 => exact Laws.InstrLength.csrrc rd csr rs1 rest
  | csrrwi rd csr uimm => exact Laws.InstrLength.csrrwi rd csr uimm rest
  | csrrsi rd csr uimm => exact Laws.InstrLength.csrrsi rd csr uimm rest
  | csrrci rd csr uimm => exact Laws.InstrLength.csrrci rd csr uimm rest
  | ebreak => exact Laws.InstrLength.ebreak rest
  | cEbreak => exact Laws.InstrLength.cEbreak rest
  | dret => exact Laws.InstrLength.dret rest

/-- `c.ebreak` is the only instruction of two bytes. -/
theorem Instr.length_eq_four_or (i : Instr) : i.length = 4 ∨ i = .cEbreak := by
  cases i with
  | cEbreak => exact .inr rfl
  | _ => exact .inl rfl

/-- Decoding undoes encoding, whatever follows. -/
theorem decode_encode (i : Instr) (rest : List Byte) : decode (encode i ++ rest) = .ok (i, rest) := by
  rcases i.length_eq_four_or with h4 | rfl
  · have hlen := instrLength_encode i rest
    unfold encode at hlen ⊢
    rw [h4] at hlen ⊢
    rw [decode_wordBytes_four hlen, decodeWord_encodeWord h4]
    rfl
  · rfl

/-- What the decoder reads from a table word whose bytes begin with those of an instruction. -/
theorem decodeTableWord_of_encode {n w : Nat} {i : Instr} {rest : List Byte} (h : tableBytes n w = encode i ++ rest) :
    decodeTableWord n w = some i := by
  rw [decodeTableWord, h, decode_encode]

end Sys2Proof

namespace Sys2Proof.Claims

/-- Settles O53: the parcel names the length, the bytes are those of the word, the fields of the word are the operands. -/
theorem decodeOfEncode : Obligations.DecodeOfEncode := decode_encode

/-- Settles O54: a word that decodes is the word of the instruction, which matches its row. -/
theorem decodedWordsMatchTheOpcodeMap : Obligations.DecodedWordsMatchTheOpcodeMap := by
  refine ⟨fun w i h => ?_, fun p i => decodeParcel_eq_ok⟩
  have hw := encodeWord_of_decodeWord h
  exact ⟨hw, hw ▸ encodeWord_masked i⟩

/-- Settles O55: each word's bytes are those of its instruction, followed by none, or by zeros after `c.ebreak`. -/
theorem knownWordsDecode : Obligations.KnownWordsDecode :=
  ⟨decodeTableWord_of_encode (rest := []) (by decide), decodeTableWord_of_encode (rest := []) (by decide),
   decodeTableWord_of_encode (rest := []) (by decide), decodeTableWord_of_encode (rest := [0, 0]) (by decide),
   decodeTableWord_of_encode (rest := []) (by decide)⟩

end Sys2Proof.Claims

/-! Proof of `BaseHartInstructionsLeaveDebugLayer`: the encodings that are the base hart's (30_encoding.md R99, 41_ebreak.md
R132), and what an instruction of the base hart leaves of the debug layer. -/

namespace Sys2Proof.Machine

/-- `x0` reads 0 (10_state.md R56). -/
@[simp] theorem getReg_zero (s : State) : s.getReg 0 = 0 := rfl

/-- An instruction of the base hart leaves the debug layer as it was, but for the Program Buffer, which an exception ends in
Debug Mode (60_exceptions.md R184). -/
theorem baseInstr_frame (s : State) (bytes : List Byte) (n : Option Nat) :
    s.baseInstr bytes n = { s with
      progbuf := (s.baseInstr bytes n).progbuf, draws := (s.baseInstr bytes n).draws, base := (s.baseInstr bytes n).base } ∧
    ((s.baseInstr bytes n).progbuf = s.progbuf ∨ (s.debugMode = true ∧ (s.baseInstr bytes n).progbuf = none)) := by
  rcases baseInstr_cases s bytes n with ⟨hd, h⟩ | h
  · rw [h]
    exact ⟨rfl, .inr ⟨hd, rfl⟩⟩
  · rw [h]
    exact ⟨rfl, .inl rfl⟩

/-- A CSR instruction on none of the four registers is the base hart's (30_encoding.md R99). -/
theorem csrInstr_otherCsr {csr : CsrAddr} (h : csrAt csr = none) (i : Instr) (rd : Reg) (op : CsrOp) (w : Word)
    (writes : Bool) (s : State) :
    csrInstr i rd csr op w writes s = .next (s.baseInstr (encode i) (some i.length)) := by
  rw [csrInstr, h]

theorem exec_csrForms_otherCsr {i : Instr} {rd : Reg} {csr : CsrAddr} {rs1 : Reg} {u : Uimm} (h : csrAt csr = none)
    (hi : i ∈ Claims.csrForms rd csr rs1 u) (s : State) :
    exec i s = .next (s.baseInstr (encode i) (some i.length)) := by
  simp only [Claims.csrForms, List.mem_cons, List.not_mem_nil, or_false] at hi
  rcases hi with rfl | rfl | rfl | rfl | rfl | rfl <;> exact csrInstr_otherCsr h ..

/-- Where IALIGN is 32, `c.ebreak` is the base hart's (41_ebreak.md R132). -/
theorem exec_cEbreak_ialign32 {s : State} (h : s.cfg.ialign = .i32) :
    exec .cEbreak s = .next (s.baseInstr (encode .cEbreak) (some (Instr.length .cEbreak))) := by
  simp [exec, execCEbreak, existsOn, h]

end Sys2Proof.Machine

namespace Sys2Proof.Claims

open Sys2Proof.Machine

/-- Settles O9: either way the instruction is one of the base hart, whose frame is that of `baseInstr`. -/
theorem baseHartInstructionsLeaveDebugLayer : Obligations.BaseHartInstructionsLeaveDebugLayer := by
  intro s i hi
  have hexec : exec i s = .next (s.baseInstr (encode i) (some i.length)) := by
    rcases hi with ⟨rd, csr, rs1, u, hcsr, hform⟩ | ⟨rfl, hialign⟩
    · exact exec_csrForms_otherCsr hcsr hform s
    · exact exec_cEbreak_ialign32 hialign
  obtain ⟨hframe, hprogbuf⟩ := baseInstr_frame s (encode i) (some i.length)
  exact ⟨_, hexec, rfl, hframe, hprogbuf, getReg_zero _⟩

end Sys2Proof.Claims

/-! Proofs of `DcsrReadsItsFields`, `ReadOnlyDcsrBitsSurviveWrites`, `DcsrWriteStoresItsFields` and `LegalizedDpcIsStable`: what
the four registers read as and what a write of them stores (40_csr_access.md R112 to R115). -/

namespace Sys2Proof.Machine

/-! ### `dcsr` under the layout of 10_state.md R29 -/

/-- The fields side by side, zeros where R29 names none. -/
theorem packDcsr_standard_eq_append (dv : BitVec 4) (nmip : Bool) (d : Dcsr) :
    packDcsr .standard dv nmip d =
      dv ++ 0#10 ++ BitVec.ofBool d.ebreakvs ++ BitVec.ofBool d.ebreakvu ++ BitVec.ofBool d.ebreakm ++ 0#1 ++
        BitVec.ofBool d.ebreaks ++ BitVec.ofBool d.ebreaku ++ BitVec.ofBool d.stepie ++ BitVec.ofBool d.stopcount ++
        BitVec.ofBool d.stoptime ++ d.cause ++ BitVec.ofBool d.v ++ BitVec.ofBool d.mprven ++ BitVec.ofBool nmip ++
        BitVec.ofBool d.step ++ d.prv := by
  refine .trans ?_ (BitVec.setWidth_eq _)
  simp only [packDcsr, putBit, putField, DcsrLayout.standard, BitVec.setWidth_append_eq_shiftLeft_setWidth_or,
    BitVec.shiftLeft_or_distrib, ← BitVec.shiftLeft_add, BitVec.setWidth_zero, BitVec.or_zero, BitVec.shiftLeft_zero]

/-- A bit inside a field that two values of `dcsr` have in common. -/
theorem getLsbD_packDcsr_common {l : DcsrLayout} {dv : BitVec 4} {nmip : Bool} {d d' : Dcsr} (hl : l.wf = true)
    {lsb n : Nat} {v : BitVec n} {i : Nat} (hlo : lsb ≤ i) (hhi : i < lsb + n)
    (hp : ⟨lsb, n, v⟩ ∈ dcsrParts l dv nmip d := by simp [dcsrParts, DcsrLayout.standard])
    (hp' : ⟨lsb, n, v⟩ ∈ dcsrParts l dv nmip d' := by simp [dcsrParts, DcsrLayout.standard]) :
    (packDcsr l dv nmip d).getLsbD i = (packDcsr l dv nmip d').getLsbD i := by
  obtain ⟨j, rfl⟩ := Nat.exists_eq_add_of_le hlo
  have hj : j < n := by omega
  exact (getLsbD_packDcsr_part hl hp hj).trans (getLsbD_packDcsr_part hl hp' hj).symm

/-- A bit of no field reads 0 (10_state.md R30). -/
theorem getLsbD_packDcsr_unnamed {l : DcsrLayout} {i : Nat} (hi : ∀ f ∈ l.fields, ¬ (f.1 ≤ i ∧ i < f.1 + f.2))
    (dv : BitVec 4) (nmip : Bool) (d : Dcsr) : (packDcsr l dv nmip d).getLsbD i = false := by
  rw [getLsbD_packDcsr, List.any_eq_false]
  intro p hp hbit
  rw [← map_dcsrParts l dv nmip d] at hi
  exact hi _ (List.mem_map_of_mem hp) (DcsrPart.lt_of_getLsbD_word hbit)

/-- The mask of `debugver`, `cause` and `nmip`: two values of `dcsr` with the same `cause` agree there. -/
theorem packDcsr_standard_and_readOnly (dv : BitVec 4) (nmip : Bool) {d d' : Dcsr} (hc : d.cause = d'.cause) :
    packDcsr .standard dv nmip d &&& 0xf00001c8#32 = packDcsr .standard dv nmip d' &&& 0xf00001c8#32 := by
  have hmask : ∀ i < 32, (0xf00001c8#32).getLsbD i = true →
      (28 ≤ i ∧ i < 28 + 4) ∨ (6 ≤ i ∧ i < 6 + 3) ∨ (3 ≤ i ∧ i < 3 + 1) := by decide
  refine BitVec.eq_of_getLsbD_eq fun i hi => ?_
  rw [BitVec.getLsbD_and, BitVec.getLsbD_and]
  cases hm : (0xf00001c8#32).getLsbD i with
  | false => simp
  | true =>
    rw [Bool.and_true, Bool.and_true]
    rcases hmask i hi hm with ⟨hlo, hhi⟩ | ⟨hlo, hhi⟩ | ⟨hlo, hhi⟩
    · exact getLsbD_packDcsr_common DcsrLayout.standard_wf (v := dv) hlo hhi
    · exact getLsbD_packDcsr_common DcsrLayout.standard_wf (v := d.cause) hlo hhi
        (hp' := by simp [dcsrParts, DcsrLayout.standard, hc])
    · exact getLsbD_packDcsr_common DcsrLayout.standard_wf (v := .ofBool nmip) hlo hhi

/-- The mask of the bits that R29 names no field for. -/
theorem packDcsr_standard_and_unnamed (dv : BitVec 4) (nmip : Bool) (d : Dcsr) :
    packDcsr .standard dv nmip d &&& 0x0ffc4000#32 = 0 := by
  have hmask : ∀ i < 32, (0x0ffc4000#32).getLsbD i = true →
      ∀ f ∈ DcsrLayout.standard.fields, ¬ (f.1 ≤ i ∧ i < f.1 + f.2) := by decide
  refine BitVec.eq_of_getLsbD_eq fun i hi => ?_
  rw [BitVec.getLsbD_and]
  cases hm : (0x0ffc4000#32).getLsbD i with
  | false => simp
  | true => simp [getLsbD_packDcsr_unnamed (hmask i hi hm)]

/-- The fields of a written word (40_csr_access.md R113), of which `dcsr` takes the low 32 bits. -/
theorem unpackDcsr_standard (w : Word) :
    unpackDcsr .standard (w.setWidth 32) =
      { ebreakvs := w.getLsbD 17, ebreakvu := w.getLsbD 16, ebreakm := w.getLsbD 15, ebreaks := w.getLsbD 13
        ebreaku := w.getLsbD 12, stepie := w.getLsbD 11, stopcount := w.getLsbD 10, stoptime := w.getLsbD 9
        cause := w.extractLsb' 6 3, v := w.getLsbD 5, mprven := w.getLsbD 4, step := w.getLsbD 2
        prv := w.extractLsb' 0 2 } := by
  simp [unpackDcsr, DcsrLayout.standard, BitVec.extractLsb'_setWidth_of_le]

/-! ### What a write of one of the four registers stores and leaves -/

@[simp] theorem State.writeCsr_base (s : State) (r : DebugCsr) (w : Word) : (s.writeCsr r w).base = s.base := by
  cases r <;> rfl

@[simp] theorem State.writeCsr_draws (s : State) (r : DebugCsr) (w : Word) : (s.writeCsr r w).draws = s.draws := by
  cases r <;> rfl

/-- A register holds what a write of it stores, the others what they held. -/
theorem stored_writeCsr (s : State) (r : DebugCsr) (w : Word) : Claims.Stored s (s.writeCsr r w) r w := by
  cases r <;> exact ⟨rfl, rfl, rfl, rfl⟩

/-- Only a write of `dcsr` can take `stoptime` from 0 to 1 (60_exceptions.md R191). -/
theorem stoptimeNoted_writeCsr (s : State) (r : DebugCsr) (w : Word) : Claims.StoptimeNoted s (s.writeCsr r w) := by
  cases r with
  | dcsr => simp [Claims.StoptimeNoted, State.writeCsr, and_assoc]
  | dpc | dscratch0 | dscratch1 => simp +contextual [Claims.StoptimeNoted, State.writeCsr]

/-- A write changes the four registers and the note of `stoptime`, nothing else. -/
theorem writeCsr_frame (s : State) (r : DebugCsr) (w : Word) :
    s.writeCsr r w = { s with
      dcsr := (s.writeCsr r w).dcsr, dpc := (s.writeCsr r w).dpc, dscratch0 := (s.writeCsr r w).dscratch0
      dscratch1 := (s.writeCsr r w).dscratch1, stoptimeSetInDebug := (s.writeCsr r w).stoptimeSetInDebug } := by
  cases r <;> rfl

theorem storedBit_writtenBit (impl : BitImpl) (b : Bool) : Claims.StoredBit impl (writtenBit impl b) b := by
  cases impl <;> simp [Claims.StoredBit, writtenBit]

/-- What is legal is stored as it is written (40_csr_access.md R117). -/
theorem legalizeDcsr_self {c : Config} {d : Dcsr} (h : d.Legal c) : legalizeDcsr c d d = d := by
  have hmode : prvLegalize c (d.v, d.prv) (d.v, d.prv) = (d.v, d.prv) := prvLegalize_allowed h.mode (.inl rfl)
  have hgate {b x : Bool} (hb : b = false → x = false) : (b && x) = x := by cases b <;> simp_all
  simp only [legalizeDcsr, hmode, hgate h.ebreakvs, hgate h.ebreakvu, hgate h.ebreaks, hgate h.ebreaku, hgate h.stepie,
    h.stopcount, h.stoptime, h.mprven]

/-- What `dpc` stores does not depend on the low bits written (10_state.md R39). -/
theorem dpcLegalize_instrAddress (c : Config) (w : Word) : dpcLegalize c (instrAddress c w) = dpcLegalize c w := by
  simp [dpcLegalize]

/-- An invalid address that `dpc` can hold is stored with its low bits clear (10_state.md R41). -/
theorem dpcLegalize_of_canHold {c : Config} {w : Word} (h : Config.canHoldInvalid c (instrAddress c w) = true) :
    dpcLegalize c w = instrAddress c w := by
  unfold dpcLegalize
  split
  · rfl
  · simp [h]

/-- `dpc` stores the address written, or a converted one, which it can hold (10_state.md R38, R41). -/
theorem dpcLegalize_cases (c : Config) (w : Word) :
    dpcLegalize c w = instrAddress c w ∨ Config.canHoldInvalid c (dpcLegalize c w) = true := by
  unfold dpcLegalize
  split
  · exact .inl rfl
  · split
    · exact .inl rfl
    · split
      · rename_i hconv
        exact .inr (Bool.and_eq_true _ _ ▸ hconv).1
      · exact .inl rfl

/-- What `dpc` holds after a write is stored again as it is (40_csr_access.md R117). -/
theorem dpcLegalize_dpcLegalize (c : Config) (w : Word) : dpcLegalize c (dpcLegalize c w) = dpcLegalize c w := by
  rcases dpcLegalize_cases c w with h | h
  · rw [h, dpcLegalize_instrAddress, h]
  · exact (dpcLegalize_of_canHold (by simpa using h)).trans (instrAddress_dpcLegalize c w)

end Sys2Proof.Machine

namespace Sys2Proof.Claims

open Sys2Proof.Machine

/-- Settles O11: what is read is the packed word, the fields side by side. -/
theorem dcsrReadsItsFields : Obligations.DcsrReadsItsFields := by
  intro s hl
  rw [State.readCsr, State.dcsrBits, hl, packDcsr_standard_eq_append]
  rfl

/-- Settles O13: a write keeps `cause`, and `debugver` and `nmip` are no stored fields. -/
theorem readOnlyDcsrBitsSurviveWrites : Obligations.ReadOnlyDcsrBitsSurviveWrites := by
  intro s w hl
  have hafter : (s.writeCsr .dcsr w).dcsrBits =
      packDcsr .standard (debugverCode s.cfg.debugver) s.nmip (s.writeCsr .dcsr w).dcsr := by
    rw [← hl]
    rfl
  rw [hafter, State.dcsrBits, hl]
  exact ⟨packDcsr_standard_and_readOnly _ _ rfl, packDcsr_standard_and_unnamed _ _ _⟩

/-- Settles O14: each field is what `legalizeDcsr` makes of the bits of the written word. -/
theorem dcsrWriteStoresItsFields : Obligations.DcsrWriteStoresItsFields := by
  intro s w d hl hw
  have hd : d = legalizeDcsr s.cfg s.dcsr (unpackDcsr .standard (w.setWidth 32)) := by
    rw [← hw, ← hl]
    rfl
  have hframe : s.writeCsr .dcsr w =
      { s with dcsr := d, stoptimeSetInDebug := (s.writeCsr .dcsr w).stoptimeSetInDebug } := by
    rw [← hw]
    exact writeCsr_frame s .dcsr w
  rw [unpackDcsr_standard] at hd
  subst hd
  exact ⟨rfl, rfl, rfl, rfl, rfl, rfl, rfl, storedBit_writtenBit _ _, storedBit_writtenBit _ _, storedBit_writtenBit _ _,
    rfl, fun hp => prvLegalize_toM hp _ _, rfl, hframe, stoptimeNoted_writeCsr s .dcsr w⟩

/-- Settles O17: the stored address is aligned and is stored again as it is. -/
theorem legalizedDpcIsStable : Obligations.LegalizedDpcIsStable := by
  refine fun s w => ⟨instrAddress_dpcLegalize s.cfg w, ?_⟩
  simp only [State.writeCsr, dpcLegalize_dpcLegalize]

end Sys2Proof.Claims

/-! Proofs of the statements on the six CSR instructions (40_csr_access.md R111, R116 to R121) and of
`SettingNoBitsStoresTheSame`: what they share where the access check passes, and the exception they raise where it fails. -/

namespace Sys2Proof.Machine

/-! ### An access that passes the check -/

/-- A write of a general register changes no part of the base hart but the general registers. -/
theorem setReg_base (s : State) (r : Reg) (w : Word) :
    (s.setReg r w).base = { s.base with x := (s.setReg r w).base.x } := by
  unfold State.setReg Base.setReg
  split <;> rfl

/-- An instruction that has read register `r` into `rd` and not written yet. -/
def csrRead (s : State) (rd : Reg) (r : DebugCsr) : State := (s.tick true false).setReg rd (s.readCsr r)

theorem csrRead_base (s : State) (rd : Reg) (r : DebugCsr) :
    (csrRead s rd r).base = { s.base with
      x := (csrRead s rd r).base.x, cycle := (csrRead s rd r).base.cycle, instret := (csrRead s rd r).base.instret
      localCounters := (csrRead s rd r).base.localCounters } := by
  rw [csrRead, setReg_base]
  simp [State.tick]

/-- The old value is in `rd`, the other general registers are unchanged (10_state.md R56). -/
theorem oldInRd_csrRead (s : State) (rd : Reg) (r : DebugCsr) : Claims.OldInRd s (csrRead s rd r) rd r :=
  fun q => getReg_setReg (s.tick true false) rd q (s.readCsr r)

theorem csrFrame_csrRead (s : State) (rd : Reg) (r : DebugCsr) : Claims.CsrFrame s (csrRead s rd r) := by
  refine ⟨?_, ?_, ?_⟩
  · rw [← csrRead_base]
    rfl
  · simp +contextual [Claims.StoptimeNoted, csrRead]
  · intro a
    rw [State.readByte, csrRead_base]
    rfl

/-- A write after the read is within the frame of the access. -/
theorem csrFrame_writeCsr (s : State) (rd : Reg) (r : DebugCsr) (w : Word) :
    Claims.CsrFrame s ((csrRead s rd r).writeCsr r w) := by
  obtain ⟨-, -, hmem⟩ := csrFrame_csrRead s rd r
  refine ⟨?_, stoptimeNoted_writeCsr (csrRead s rd r) r w, fun a => ?_⟩
  · rw [State.writeCsr_base, State.writeCsr_draws, ← csrRead_base]
    exact writeCsr_frame (csrRead s rd r) r w
  · rw [State.readByte, State.writeCsr_base]
    exact hmem a

section csrInstr
variable {s : State} {r : DebugCsr} (ha : s.csrAccessible r = true)
include ha

/-- A form that writes: the old value in `rd`, then the write (40_csr_access.md R116). -/
theorem csrInstr_writing (hm : s.mayWrite r = true) (i : Instr) (rd : Reg) (op : CsrOp) (w : Word) :
    ∃ t, csrInstr i rd (csrAddress r) op w true s = .next t ∧ Claims.OldInRd s t rd r ∧
      Claims.Stored s t r (csrNewValue op (s.readCsr r) w) ∧ Claims.CsrFrame s t := by
  refine ⟨(csrRead s rd r).writeCsr r (csrNewValue op (s.readCsr r) w), ?_, fun q => ?_,
    stored_writeCsr (csrRead s rd r) r _, csrFrame_writeCsr s rd r _⟩
  · simp [csrInstr, csrAt_csrAddress, ha, hm, csrRead]
  · rw [State.getReg, State.writeCsr_base]
    exact oldInRd_csrRead s rd r q

/-- A form that does not write: the old value in `rd` and no more. -/
theorem csrInstr_reading (i : Instr) (rd : Reg) (op : CsrOp) (w : Word) :
    ∃ t, csrInstr i rd (csrAddress r) op w false s = .next t ∧ Claims.OldInRd s t rd r ∧
      Claims.NotStored s t ∧ Claims.CsrFrame s t := by
  refine ⟨csrRead s rd r, ?_, oldInRd_csrRead s rd r, ⟨rfl, rfl, rfl, rfl⟩, csrFrame_csrRead s rd r⟩
  simp [csrInstr, csrAt_csrAddress, ha, csrRead]

/-- The set and clear forms: no write where the operand is named as `x0` or 0 (40_csr_access.md R117 to R121). -/
theorem csrInstr_writing_unless {p : Prop} [Decidable p] (hm : ¬ p → s.mayWrite r = true) (i : Instr) (rd : Reg)
    (op : CsrOp) (w : Word) :
    ∃ t, csrInstr i rd (csrAddress r) op w (decide (¬ p)) s = .next t ∧ Claims.OldInRd s t rd r ∧
      (if p then Claims.NotStored s t else Claims.Stored s t r (csrNewValue op (s.readCsr r) w)) ∧
      Claims.CsrFrame s t := by
  by_cases hp : p
  · simpa [hp] using csrInstr_reading ha i rd op w
  · simpa [hp] using csrInstr_writing ha (hm hp) i rd op w

end csrInstr

/-- What a mentioned register reads as is, in a sound state, what a write of it stores; for `dpc` where it holds an address
that `dpc` can hold (40_csr_access.md R117: "every stored value is already legal"). -/
theorem notStored_of_stored_readCsr {s t : State} {r : DebugCsr} (h : s.Sound) (hl : s.cfg.layout.wf = true)
    (hm : mentioned s.cfg r = true) (hdpc : r = .dpc → dpcLegalize s.cfg s.dpc = s.dpc)
    (ht : Claims.Stored s t r (s.readCsr r)) : Claims.NotStored s t := by
  obtain ⟨hd, hp, h0, h1⟩ := ht
  have hscratch0 : trunc s.cfg s.dscratch0 = s.dscratch0 := h.scratch0
  have hscratch1 : trunc s.cfg s.dscratch1 = s.dscratch1 := h.scratch1
  cases r with
  | dcsr =>
    have hread : unpackDcsr s.cfg.layout ((s.readCsr .dcsr).setWidth 32) = s.dcsr := by
      simp [State.readCsr, State.dcsrBits, unpackDcsr_packDcsr hl]
    rw [if_pos rfl, hread, legalizeDcsr_self h.dcsr] at hd
    exact ⟨hd, hp, h0, h1⟩
  | dpc => exact ⟨hd, hp.trans (hdpc rfl), h0, h1⟩
  | dscratch0 => exact ⟨hd, hp, by simpa [State.readCsr, hm, hscratch0] using h0, h1⟩
  | dscratch1 => exact ⟨hd, hp, h0, by simpa [State.readCsr, hm, hscratch1] using h1⟩

/-! ### An access that fails the check (40_csr_access.md R111) -/

theorem csrAccessible_iff (s : State) (r : DebugCsr) : s.csrAccessible r = true ↔ ¬ Claims.AccessFails s r := by
  cases r <;> simp [State.csrAccessible, Claims.AccessFails, present]

theorem exec_csrForms_fails {s : State} {i : Instr} {rd rs1 : Reg} {u : Uimm} {r : DebugCsr}
    (ha : s.csrAccessible r = false) (hi : i ∈ Claims.csrForms rd (csrAddress r) rs1 u) :
    exec i s = .next (s.raise (.illegalInstruction (encode i))) := by
  have hfails (op : CsrOp) (w : Word) (writes : Bool) :
      csrInstr i rd (csrAddress r) op w writes s = .next (s.raise (.illegalInstruction (encode i))) := by
    simp [csrInstr, csrAt_csrAddress, ha]
  simp only [Claims.csrForms, List.mem_cons, List.not_mem_nil, or_false] at hi
  rcases hi with rfl | rfl | rfl | rfl | rfl | rfl <;> exact hfails ..

/-- An exception in Debug Mode ends the Program Buffer (60_exceptions.md R184). -/
theorem endsProgbuf_raise {s : State} (hd : s.debugMode = true) (e : Exc) : Claims.EndsProgbuf s (s.raise e) := by
  rcases raise_cases s e with ⟨-, h⟩ | ⟨hf, -⟩
  · rw [h]
    exact ⟨rfl, rfl, fun _ => rfl⟩
  · simp [hd] at hf

/-- A trap is taken by a mode of the hart, at the instruction at `pc` (41_ebreak.md R133). -/
theorem trapTaken_takeTrap (s : State) (e : Exc) : ∃ tm, Claims.TrapTaken s (s.takeTrap e) tm := by
  refine ⟨trapTarget s.cfg (Config.baseTrap s.cfg s.draws e s.base).mode, ?_⟩
  dsimp only [State.takeTrap]
  generalize trapTarget s.cfg (Config.baseTrap s.cfg s.draws e s.base).mode = tm
  cases tm <;> exact ⟨rfl, rfl, rfl, fun _ => rfl⟩

/-- Counting an instruction that does not retire is within the frame of a trap. -/
theorem trapTaken_of_tick {s t : State} {tm : TrapMode} (h : Claims.TrapTaken (s.tick false false) t tm) :
    Claims.TrapTaken s t tm := by
  obtain ⟨hepc, hmode, hframe, hmem⟩ := h
  refine ⟨hepc, hmode, hframe.trans ?_, hmem⟩
  cases tm <;> simp [State.tick, Base.setTrapRegs]

/-- An exception outside Debug Mode is taken as a trap. -/
theorem trapTaken_raise {s : State} (hd : s.debugMode = false) (e : Exc) : ∃ tm, Claims.TrapTaken s (s.raise e) tm := by
  rcases raise_cases s e with ⟨hf, -⟩ | ⟨-, h⟩
  · simp [hd] at hf
  · rw [h]
    exact (trapTaken_takeTrap _ e).imp fun _ => trapTaken_of_tick

end Sys2Proof.Machine

namespace Sys2Proof.Claims

open Sys2Proof.Machine

/-- Settles O1: the form that always writes, with the value of `rs1` from before. -/
theorem csrrwSwapsRegisterAndCsr : Obligations.CsrrwSwapsRegisterAndCsr :=
  fun _ _ _ _ ha hm => csrInstr_writing ha hm ..

/-- Settles O2: the set form, which writes unless `rs1` is `x0`. -/
theorem csrrsSetsBits : Obligations.CsrrsSetsBits := fun _ _ _ _ ha hm => csrInstr_writing_unless ha hm ..

/-- Settles O3: the clear form, which writes unless `rs1` is `x0`. -/
theorem csrrcClearsBits : Obligations.CsrrcClearsBits := fun _ _ _ _ ha hm => csrInstr_writing_unless ha hm ..

/-- Settles O4: the form that always writes, with the zero-extended immediate. -/
theorem csrrwiWritesImmediate : Obligations.CsrrwiWritesImmediate := fun _ _ _ _ ha hm => csrInstr_writing ha hm ..

/-- Settles O5: the set form, which writes unless the immediate is 0. -/
theorem csrrsiSetsImmediateBits : Obligations.CsrrsiSetsImmediateBits :=
  fun _ _ _ _ ha hm => csrInstr_writing_unless ha hm ..

/-- Settles O6: the clear form, which writes unless the immediate is 0. -/
theorem csrrciClearsImmediateBits : Obligations.CsrrciClearsImmediateBits :=
  fun _ _ _ _ ha hm => csrInstr_writing_unless ha hm ..

/-- Settles O7: where the check fails every form raises the exception, which is a trap or ends the Program Buffer. -/
theorem failedCsrAccessRaisesIllegalInstruction : Obligations.FailedCsrAccessRaisesIllegalInstruction := by
  refine fun s rd rs1 u r => ⟨csrAccessible_iff s r, fun i hi hfails => ?_⟩
  have ha : s.csrAccessible r = false := by simpa [hfails] using csrAccessible_iff s r
  exact ⟨_, exec_csrForms_fails ha hi, rfl, fun hd => trapTaken_raise hd _, fun hd => endsProgbuf_raise hd _⟩

/-- Settles O10: the register is not written, or what it reads as is, which is what it holds. -/
theorem settingNoBitsStoresTheSame : Obligations.SettingNoBitsStoresTheSame := by
  intro s rd rs1 r hs hl ha hm hzero hdpc
  obtain ⟨t, hexec, -, hstored, -⟩ :=
    csrrsSetsBits s rd rs1 r ha fun _ => by simp [State.mayWrite, hm]
  refine ⟨t, hexec, ?_⟩
  by_cases h0 : rs1 = 0
  · rwa [if_pos h0] at hstored
  · have hor : s.readCsr r ||| 0 = s.readCsr r := BitVec.or_zero
    rw [if_neg h0, hzero, hor] at hstored
    exact notStored_of_stored_readCsr hs (hl ▸ DcsrLayout.standard_wf) hm hdpc hstored

end Sys2Proof.Claims

/-! Proofs of `AbstractReadReturnsTheRegister` and `AbstractWriteStoresTheRegister`: an abstract command is the boundary of
10_state.md R48, then a read or write of the register, then the Program Buffer with `postexec` (40_csr_access.md R124, R125). -/

namespace Sys2Proof.Machine

/-- Starting the Program Buffer changes it and nothing else. -/
theorem startProgbuf_eq (s : State) (p : Option (List Byte)) :
    s.startProgbuf p = { s with progbuf := if p.isSome = true then p else s.progbuf } := by
  cases p <;> rfl

/-- An accessible register of a halted hart is one it has (40_csr_access.md R111). -/
theorem abstractRead_of_accessible {s : State} {r : DebugCsr} (ha : s.csrAccessible r = true) (p : Option (List Byte)) :
    s.abstractRead r p = .next ((s.commandBoundary.returnToDebugger (s.commandBoundary.readCsr r)).startProgbuf p) := by
  obtain ⟨hd, hp⟩ := Bool.and_eq_true _ _ ▸ ha
  simp [State.abstractRead, hd, hp]

theorem abstractWrite_of_accessible {s : State} {r : DebugCsr} (ha : s.csrAccessible r = true)
    (hm : mentioned s.cfg r = true) (w : Word) (p : Option (List Byte)) :
    s.abstractWrite r w p = .next ((s.commandBoundary.writeCsr r w).startProgbuf p) := by
  obtain ⟨hd, hp⟩ := Bool.and_eq_true _ _ ▸ ha
  simp [State.abstractWrite, hd, hp, hm]

/-- A scratch register that `hartinfo` mentions reads as what it holds (40_csr_access.md R115). -/
theorem readCsr_dscratch0 {s : State} (hm : mentioned s.cfg .dscratch0 = true) : s.readCsr .dscratch0 = s.dscratch0 :=
  if_pos hm

theorem readCsr_dscratch1 {s : State} (hm : mentioned s.cfg .dscratch1 = true) : s.readCsr .dscratch1 = s.dscratch1 :=
  if_pos hm

/-- Mentioned or not, a scratch register reads as some XLEN-bit value (10_state.md R48). -/
theorem fits_readCsr_scratch {s : State} {r : DebugCsr} (h0 : Fits s.cfg s.dscratch0) (h1 : Fits s.cfg s.dscratch1)
    (hr : r = .dscratch0 ∨ r = .dscratch1) : Fits s.cfg (s.readCsr r) := by
  rcases hr with rfl | rfl
  · simp only [State.readCsr]
    split
    · exact h0
    · exact trunc_draw s _
  · simp only [State.readCsr]
    split
    · exact h1
    · exact trunc_draw s _

end Sys2Proof.Machine

namespace Sys2Proof.Claims

open Sys2Proof.Machine

/-- Settles O46: the register is read after the boundary, which leaves `dcsr` and `dpc`. -/
theorem abstractReadReturnsTheRegister : Obligations.AbstractReadReturnsTheRegister := by
  refine fun s r p ha => ⟨_, s.commandBoundary.readCsr r, abstractRead_of_accessible ha p, ?_⟩
  rw [startProgbuf_eq]
  refine ⟨rfl, ?_, ?_, ?_, ?_, fits_readCsr_scratch (s := s.commandBoundary) (trunc_draw s _) (trunc_draw s _),
    rfl, rfl, rfl, rfl⟩
  · rintro rfl
    rfl
  · rintro rfl
    rfl
  · rintro rfl hm
    exact readCsr_dscratch0 hm
  · rintro rfl hm
    exact readCsr_dscratch1 hm

/-- Settles O47: the write is that of a CSR instruction, made after the boundary. -/
theorem abstractWriteStoresTheRegister : Obligations.AbstractWriteStoresTheRegister := by
  refine fun s r w p ha hm => ⟨_, abstractWrite_of_accessible ha hm w p, ?_⟩
  obtain ⟨hdcsr, hdpc, hscratch0, hscratch1⟩ := stored_writeCsr s.commandBoundary r w
  rw [startProgbuf_eq]
  refine ⟨hdcsr, hdpc, hscratch0, hscratch1, fun hr => ?_, stoptimeNoted_writeCsr s.commandBoundary r w, ?_, ?_⟩
  · cases r with
    | dcsr => exact absurd rfl hr
    | dpc | dscratch0 | dscratch1 => rfl
  · cases r <;> rfl
  · cases r <;> rfl

end Sys2Proof.Claims

/-! Proofs of the statements on `ebreak` and `c.ebreak` (41_ebreak.md R130 to R137) and of `SteppedEbreak`: what the instruction
does by the bit that governs it, and the step of the hart in which it is what comes next (60_exceptions.md R171). -/

namespace Sys2Proof.Machine

open Claims (EbreakOf GovernedBy Entered CountersFrozen TrapTaken JumpDue lateReasons SteppedTo)

/-! ### The instruction -/

/-- In each of the five modes R130 names the mode's own bit. -/
theorem ebreakToDebug_of_governedBy {s : State} {b : Bool} (hg : GovernedBy s b) : s.ebreakToDebug = some b := by
  rcases hg with ⟨hv, hp, hb⟩ | ⟨hv, hp, hb⟩ | ⟨hv, hp, hb⟩ | ⟨hv, hp, hb⟩ | ⟨hv, hp, hb⟩ <;>
    simp [State.ebreakToDebug, State.mode, hv, hp, governingBit, hb]

section ebreak
variable {s : State} {i : Instr} (hi : EbreakOf s i)
include hi

theorem isEbreak_of_ebreakOf : isEbreak s.cfg i = true := by
  rcases hi with rfl | ⟨rfl, hialign⟩
  · rfl
  · simp [isEbreak, existsOn, hialign]

/-- `c.ebreak`, where the hart has it, is as `ebreak` (41_ebreak.md R132). -/
theorem exec_ebreakOf : exec i s = ebreakEffect s := by
  rcases hi with rfl | ⟨rfl, hialign⟩
  · rfl
  · simp [exec, execCEbreak, existsOn, hialign]

theorem exec_ebreak_halted (hd : s.debugMode = true) : exec i s = .next ((s.tick true false).setProgbuf none) := by
  rw [exec_ebreakOf hi, ebreakEffect, if_pos hd]

theorem exec_ebreak_governed (hd : s.debugMode = false) (hg : GovernedBy s true) :
    exec i s = .next ((s.tick true true).enterDebug .ebreak s.base.pc) := by
  simp [exec_ebreakOf hi, ebreakEffect, hd, ebreakToDebug_of_governedBy hg]

theorem exec_ebreak_ungoverned (hd : s.debugMode = false) (hg : GovernedBy s false) :
    exec i s = .next (s.raise (.breakpoint s.base.pc)) := by
  simp [exec_ebreakOf hi, ebreakEffect, hd, ebreakToDebug_of_governedBy hg]

end ebreak

/-! ### Entering Debug Mode, and a breakpoint's trap -/

/-- An entry into Debug Mode, in a step that counts (60_exceptions.md R165). -/
theorem entered_tick_enterDebug (s : State) (mayRetire entering : Bool) (r : Reason) (addr : Word) :
    Entered s ((s.tick mayRetire entering).enterDebug r addr) (causeCode s.cfg r) addr :=
  ⟨rfl, rfl, rfl, rfl, rfl, fun _ => List.mem_cons, rfl, fun _ => rfl⟩

/-- With `stopcount` an `ebreak` that enters Debug Mode is not counted (60_exceptions.md R190, `entering_ebreak`). -/
theorem countersFrozen_tick_entering {s : State} (hs : s.dcsr.stopcount = true) (mayRetire : Bool) :
    CountersFrozen s (s.tick mayRetire true) := by
  have hfrozen : s.countersFrozen true = true := by simp [State.countersFrozen, hs]
  refine ⟨by simp [State.tick, hfrozen], by simp [State.tick, hfrozen], fun hmulti hcycle => ?_⟩
  simp [State.tick, State.cycleFrozen, hfrozen, hmulti, hcycle]

theorem trapModeCode_injective : Function.Injective trapModeCode := by
  intro p q
  cases p <;> cases q <;> simp [trapModeCode]

/-- What the trap registers of the mode that takes a trap hold (41_ebreak.md R133). -/
theorem trapRegs_takeTrap {s : State} {e : Exc} {tm : TrapMode} (hm : (s.takeTrap e).mode = trapModeCode tm) :
    (s.takeTrap e).base.trapRegs tm =
      { epc := s.base.pc, cause := s.excCause e, tval := s.excTval (Config.baseTrap s.cfg s.draws e s.base) e } := by
  have htarget : trapTarget s.cfg (Config.baseTrap s.cfg s.draws e s.base).mode = tm := trapModeCode_injective hm
  have hregs := trapRegs_setTrapRegs s.base tm tm
    { epc := s.base.pc, cause := s.excCause e, tval := s.excTval (Config.baseTrap s.cfg s.draws e s.base) e }
  rw [if_pos rfl] at hregs
  rw [← hregs, State.takeTrap, htarget]
  cases tm <;> rfl

/-- The cause and the trap value of a breakpoint (41_ebreak.md R133). -/
theorem trapRegs_raise_breakpoint {s : State} {a : Word} {tm : TrapMode} (hd : s.debugMode = false)
    (hm : (s.raise (.breakpoint a)).mode = trapModeCode tm) :
    ((s.raise (.breakpoint a)).base.trapRegs tm).cause = 3 ∧
    (((s.raise (.breakpoint a)).base.trapRegs tm).tval = 0 ∨ ((s.raise (.breakpoint a)).base.trapRegs tm).tval = a) := by
  rcases raise_cases s (.breakpoint a) with ⟨hf, -⟩ | ⟨-, h⟩
  · simp [hd] at hf
  · rw [h] at hm ⊢
    rw [trapRegs_takeTrap hm]
    refine ⟨rfl, ?_⟩
    simp only [State.excTval]
    split
    · exact .inr rfl
    · exact .inl rfl

/-- An instruction that traps does not retire. -/
theorem instret_of_trapTaken {s t : State} {tm : TrapMode} (h : TrapTaken s t tm) : t.base.instret = s.base.instret := by
  obtain ⟨-, -, hframe, -⟩ := h
  rw [hframe]
  cases tm <;> rfl

/-! ### The highest reason (60_exceptions.md R160) -/

/-- Every permitted order names all six reasons (60_exceptions.md R163). -/
theorem mem_causeOrder (c : Config) (r : Reason) : r ∈ causeOrder c := by
  have hall : ∀ k : Fin 15, r ∈ causeOrders.getD k.val [] := by cases r <;> decide
  exact hall c.causeOrder

@[simp] theorem highest_eq_none {c : Config} {present : List Reason} : highest c present = none ↔ present = [] := by
  simp [highest, List.find?_eq_none, mem_causeOrder, List.eq_nil_iff_forall_not_mem]

@[simp] theorem highest_nil (c : Config) : highest c [] = none := highest_eq_none.mpr rfl

theorem mem_of_highest {c : Config} {present : List Reason} {r : Reason} (h : highest c present = some r) :
    r ∈ present := by simpa using List.find?_some h

theorem exists_highest_of_ne_nil (c : Config) {present : List Reason} (h : present ≠ []) :
    ∃ r, highest c present = some r := Option.ne_none_iff_exists'.mp (mt highest_eq_none.mp h)

@[simp] theorem highest_singleton (c : Config) (r : Reason) : highest c [r] = some r := by
  obtain ⟨q, hq⟩ := exists_highest_of_ne_nil c (List.cons_ne_nil r [])
  rw [hq, List.mem_singleton.mp (mem_of_highest hq)]

/-! ### A step in which the instruction at `pc` comes next -/

theorem takeJump_of_not_due {s : State} (hj : ¬ JumpDue s) : s.takeJump = s := by
  rcases takeJump_cases s with h | ⟨w, hw, -⟩
  · exact h
  · exact absurd (by simp [JumpDue, hw]) hj

theorem reasonsBefore_of_quiet {s : State} {inputs : HartInputs} (ha : s.asyncReasons = [])
    (ht : s.triggerPresent inputs = false) (i : Option Instr) :
    s.reasonsBefore inputs i = if s.ebreakPresent i then [.ebreak] else [] := by
  simp [State.reasonsBefore, ha, ht]

/-- The instruction at `pc` is executed where no reason but ebreak is present before it, and no interrupt is taken in its place:
none is looked at where reason ebreak is present (60_exceptions.md R171). -/
theorem hartStep_of_quiet {s : State} {inputs : HartInputs} (hd : s.debugMode = false) (hj : ¬ JumpDue s)
    (ha : s.asyncReasons = []) (ht : s.triggerPresent inputs = false)
    (hirq : s.ebreakPresent (decoded s.fetch) = true ∨ s.irqReady = false ∨ s.interruptsMasked = true) :
    s.hartStep inputs = mapNext (fun u => u.afterInstr inputs) s.executeAtPc := by
  simp only [State.hartStep, hd, Bool.false_eq_true, if_false, State.runStep, takeJump_of_not_due hj,
    reasonsBefore_of_quiet ha ht]
  cases he : s.ebreakPresent (decoded s.fetch) with
  | true => simp
  | false =>
    have hnot : (s.irqReady && !s.interruptsMasked) = false := by
      rcases hirq with h | h | h
      · simp [he] at h
      · simp [h]
      · simp [h]
    simp [hnot]

theorem executeAtPc_of_decoded {s : State} {i : Instr} (h : decoded s.fetch = some i) :
    s.executeAtPc = exec i s.notePc := by
  rw [State.executeAtPc, h]

/-- The step at a governed `ebreak`: it enters Debug Mode at its own address, and nothing follows it. -/
theorem hartStep_governed_ebreak {s : State} {inputs : HartInputs} {i : Instr} (hd : s.debugMode = false)
    (hj : ¬ JumpDue s) (ha : s.asyncReasons = []) (ht : s.triggerPresent inputs = false) (hi : EbreakOf s i)
    (hf : decoded s.fetch = some i) (hg : GovernedBy s true) :
    s.hartStep inputs =
      .next (((s.notePc.tick true true).enterDebug .ebreak s.base.pc).lateRequests inputs) := by
  have hpresent : s.ebreakPresent (decoded s.fetch) = true := by
    simp [hf, State.ebreakPresent, isEbreak_of_ebreakOf hi, ebreakToDebug_of_governedBy hg]
  rw [hartStep_of_quiet hd hj ha ht (.inl hpresent), executeAtPc_of_decoded hf,
    exec_ebreak_governed (s := s.notePc) hi hd hg]
  simp [mapNext, State.afterInstr]

/-! ### The end of a single step -/

/-- The asynchronous reasons at the end of a step before which there was none: the requests that became present meanwhile
(60_exceptions.md R171, "present now"). -/
theorem asyncReasons_lateRequests {s : State} (ha : s.asyncReasons = []) (inputs : HartInputs) :
    (s.lateRequests inputs).asyncReasons = lateReasons s.cfg inputs := by
  obtain ⟨hreset, hgroup, hhalt⟩ : s.resethaltPresent = false ∧ s.groupPresent = false ∧ s.haltreq = false := by
    simpa [State.asyncReasons] using ha
  have hlate : (s.lateRequests inputs).groupPresent = (s.cfg.hasHaltGroups && inputs.lateGroup) := by
    have hgroup : (s.cfg.hasHaltGroups && s.group) = false := hgroup
    simp only [State.groupPresent, State.lateRequests_cfg, State.lateRequests_group, Bool.and_or_distrib_left, hgroup,
      Bool.false_or]
  simp [State.asyncReasons, lateReasons, hreset, hhalt, hlate]

/-- With `step` set, an instruction that ends outside Debug Mode is followed by an entry, for the highest of step and the
requests present now (60_exceptions.md R171). -/
theorem afterInstr_of_step {s : State} (hd : s.debugMode = false) (hs : s.dcsr.step = true) (inputs : HartInputs) :
    ∃ r, highest s.cfg (.step :: (s.lateRequests inputs).asyncReasons) = some r ∧
      s.afterInstr inputs = { s.lateRequests inputs with
        trigAfterPending := s.cfg.hasTriggers && inputs.trigAfter
        pendingJump := s.pendingJump.map fun (j : Nat × Word) => (j.1 - 1, j.2) }.enterDebug r s.base.pc := by
  obtain ⟨r, hr⟩ := exists_highest_of_ne_nil s.cfg (List.cons_ne_nil .step (s.lateRequests inputs).asyncReasons)
  refine ⟨r, hr, ?_⟩
  simp only [State.afterInstr, State.lateRequests_debugMode, hd, Bool.false_eq_true, if_false, State.lateRequests_dcsr, hs,
    if_true]
  split
  · rename_i q hq
    rw [Option.some.inj (hq.symm.trans hr)]
    rfl
  · rename_i hnone
    exact absurd hnone (hr ▸ Option.some_ne_none r)

/-- A single step ends in Debug Mode (60_exceptions.md R167, R170, R171). -/
theorem steppedTo_afterInstr {s : State} (hd : s.debugMode = false) (hs : s.dcsr.step = true) (ha : s.asyncReasons = [])
    (inputs : HartInputs) : SteppedTo s.cfg s (s.afterInstr inputs) inputs := by
  obtain ⟨r, hr, hend⟩ := afterInstr_of_step hd hs inputs
  rw [asyncReasons_lateRequests ha] at hr
  rw [hend]
  refine ⟨rfl, ⟨r, hr, rfl⟩, fun hlate => ?_, fun hlate horder => ?_, rfl, hs, rfl, rfl, rfl, fun _ => rfl⟩
  · rw [hlate, highest_singleton] at hr
    cases hr
    rfl
  · have hhalt : highest s.cfg [.step, .haltreq] = some .haltreq := by
      rw [highest, causeOrder, horder]
      decide
    rw [hlate, hhalt] at hr
    cases hr
    rfl

end Sys2Proof.Machine

namespace Sys2Proof.Claims

open Sys2Proof.Machine

/-- Settles O18: the one bit R130 names for the mode decides, and its two values are the two ways out. -/
theorem ebreakIsRoutedByItsModesBit : Obligations.EbreakIsRoutedByItsModesBit := by
  intro s i b hi hd hg
  cases b with
  | true => exact ⟨_, exec_ebreak_governed hi hd hg, rfl, nofun⟩
  | false => exact ⟨_, exec_ebreak_ungoverned hi hd hg, (s.raise_debugMode _).trans hd, fun _ => rfl⟩

/-- Settles O20: the entry for reason ebreak, counted as `entering_ebreak`. -/
theorem governedEbreakEntersDebugMode : Obligations.GovernedEbreakEntersDebugMode :=
  fun s _ hi hd hg => ⟨_, exec_ebreak_governed hi hd hg, entered_tick_enterDebug s true true .ebreak s.base.pc,
    fun hs => countersFrozen_tick_entering hs true⟩

/-- Settles O21: the trap of the breakpoint exception, taken by the mode the hart goes on in. -/
theorem ungovernedEbreakTakesBreakpoint : Obligations.UngovernedEbreakTakesBreakpoint := by
  intro s i hi hd hg
  obtain ⟨tm, htrap⟩ := trapTaken_raise hd (.breakpoint s.base.pc)
  have ⟨_, hmode, _, _⟩ := htrap
  obtain ⟨hcause, htval⟩ := trapRegs_raise_breakpoint hd hmode
  exact ⟨_, tm, exec_ebreak_ungoverned hi hd hg, htrap, hcause, htval, instret_of_trapTaken htrap⟩

/-- Settles O22: the Program Buffer ends, whatever the governing bit. -/
theorem ebreakInDebugModeEndsProgbuf : Obligations.EbreakInDebugModeEndsProgbuf :=
  fun _ _ hi hd => ⟨_, exec_ebreak_halted hi hd, ⟨rfl, rfl, fun _ => rfl⟩, hd⟩

/-- Settles O23: the step after the resume is that of a governed `ebreak` at `dpc`, in the mode of `v` and `prv`. -/
theorem resumingAtEbreakReenters : Obligations.ResumingAtEbreakReenters := by
  intro s i _ hi hf hg ha ht hjump
  have hj : ¬ JumpDue s.resume := by simp [JumpDue, hjump]
  exact ⟨_, hartStep_governed_ebreak (s := s.resume) rfl hj ha ht hi hf hg, rfl, rfl, rfl, rfl⟩

/-- Settles O33: governed, the `ebreak` makes its own entry; otherwise its trap is the stepped instruction. -/
theorem steppedEbreak : Obligations.SteppedEbreak := by
  intro s inputs i b hd hs hq hi hf hg
  obtain ⟨ha, ht, hirq, hj⟩ := hq
  cases b with
  | true => exact ⟨_, hartStep_governed_ebreak hd hj ha ht hi hf hg, rfl, fun _ => ⟨rfl, rfl⟩, nofun⟩
  | false =>
    have hexec : exec i s.notePc = .next (s.notePc.raise (.breakpoint s.base.pc)) :=
      exec_ebreak_ungoverned (s := s.notePc) hi hd hg
    have hstep : s.hartStep inputs = .next ((s.notePc.raise (.breakpoint s.base.pc)).afterInstr inputs) := by
      rw [hartStep_of_quiet hd hj ha ht (.inr hirq), executeAtPc_of_decoded hf, hexec, mapNext]
    have hrun := raise_running (s := s.notePc) (.breakpoint s.base.pc) hd
    have hud : (s.notePc.raise (.breakpoint s.base.pc)).debugMode = false := (congrArg State.debugMode hrun).trans hd
    have hsteps := steppedTo_afterInstr hud ((congrArg (fun u => u.dcsr.step) hrun).trans hs)
      ((congrArg State.asyncReasons hrun).trans ha) inputs
    rw [State.raise_cfg] at hsteps
    obtain ⟨hdebug, hcause, hfour, -, hdpc, -⟩ := hsteps
    exact ⟨_, hstep, hdebug, nofun, fun _ => ⟨hcause, hfour, _, hexec, rfl, hud, hdpc⟩⟩

end Sys2Proof.Claims

/-! Proofs of `DretResumes`, `DretElsewhereIsIllegal` and `ResumeReqEqualsDret` (42_dret.md R140 to R142): `dret` counts itself,
then does what `ResumeReq` does (60_exceptions.md R180); where it is illegal it raises the exception of any other instruction. -/

namespace Sys2Proof.Machine

open Claims (Resumed OnlyCounted NotStored)

/-! ### The instruction -/

section dret
variable {s : State}

/-- In Debug Mode, on a hart that has it, `dret` resumes (42_dret.md R140). -/
theorem exec_dret_halted (hd : s.debugMode = true) (hh : s.cfg.hasDret = true) :
    exec .dret s = .next (s.tick true false).resume := by
  simp [exec, execDret, existsOn, hd, hh]

/-- Outside Debug Mode, and on a hart without it, `dret` is an illegal instruction (42_dret.md R141). -/
theorem exec_dret_elsewhere (h : s.debugMode = false ∨ s.cfg.hasDret = false) :
    exec .dret s = .next (s.raise (.illegalInstruction (encode .dret))) := by
  rcases h with hd | hh
  · simp [exec, execDret, hd]
  · simp [exec, execDret, existsOn, hh]

end dret

/-! ### Resuming, and the exception -/

/-- `Resume()` has the effect of 60_exceptions.md R180 and R182. -/
theorem resumed_resume (s : State) : Resumed s s.resume :=
  ⟨rfl, rfl, rfl, rfl, rfl, rfl, fun _ => rfl⟩

/-- Counting an instruction first is within the frame of a resume. -/
theorem resumed_of_tick {s t : State} {mayRetire entering : Bool} (h : Resumed (s.tick mayRetire entering) t) :
    Resumed s t := h

/-- Whether an instruction was counted before a resume, only the counters tell. -/
theorem onlyCounted_resume_tick (s : State) (mayRetire entering : Bool) :
    OnlyCounted s.resume (s.tick mayRetire entering).resume := ⟨rfl, fun _ => rfl⟩

theorem notStored_resume_tick (s : State) (mayRetire entering : Bool) :
    NotStored s (s.tick mayRetire entering).resume := ⟨rfl, rfl, rfl, rfl⟩

@[simp] theorem State.raise_dcsr (s : State) (e : Exc) : (s.raise e).dcsr = s.dcsr := by
  rcases raise_cases s e with ⟨-, h⟩ | ⟨-, h⟩ <;> simp [h]

@[simp] theorem State.raise_dpc (s : State) (e : Exc) : (s.raise e).dpc = s.dpc := by
  rcases raise_cases s e with ⟨-, h⟩ | ⟨-, h⟩ <;> simp [h]

end Sys2Proof.Machine

namespace Sys2Proof.Claims

open Sys2Proof.Machine

/-- Settles O24: the resume of `Resume()`, after the instruction has counted itself. -/
theorem dretResumes : Obligations.DretResumes :=
  fun s hd hh => ⟨_, exec_dret_halted hd hh, resumed_of_tick (resumed_resume (s.tick true false)),
    notStored_resume_tick s true false⟩

/-- Settles O25: the exception of an illegal instruction, which is a trap or ends the Program Buffer. -/
theorem dretElsewhereIsIllegal : Obligations.DretElsewhereIsIllegal :=
  ⟨decodeTableWord_of_encode (rest := []) (by decide), fun s h =>
    ⟨_, exec_dret_elsewhere h, rfl, s.raise_dcsr _, s.raise_dpc _, s.raise_debugMode _,
      fun hd => trapTaken_raise hd _, fun hd => endsProgbuf_raise hd _⟩⟩

/-- Settles O26: both are `Resume()`, `dret` after counting itself. -/
theorem resumeReqEqualsDret : Obligations.ResumeReqEqualsDret :=
  fun s hd => ⟨s.resume, by simp [State.applyEvent, hd], resumed_resume s,
    fun hh => ⟨_, exec_dret_halted hd hh, onlyCounted_resume_tick s true false⟩⟩

end Sys2Proof.Claims

/-! Proofs of `CauseOrdersAreThePermittedOnes` and `HighestReasonComesFirst` (60_exceptions.md R160, R163): the permitted orders
are the interleavings of two lists, and `Highest(R)` is the first reason present in the hart's order. -/

namespace Sys2Proof.Machine

/-! ### Interleavings -/

/-- The interleavings of `a :: l` with a list, given those of `l`. -/
def interleavingsCons {α : Type} (a : α) (ofTail : List α → List (List α)) : List α → List (List α)
  | [] => (ofTail []).map (a :: ·)
  | b :: m => (ofTail (b :: m)).map (a :: ·) ++ (interleavingsCons a ofTail m).map (b :: ·)

/-- The interleavings of two lists. -/
def interleavings {α : Type} : List α → List α → List (List α)
  | [], m => [m]
  | a :: l, m => interleavingsCons a (interleavings l) m

theorem cons_mem_interleavings_left {α : Type} {l m n : List α} (a : α) (h : n ∈ interleavings l m) :
    a :: n ∈ interleavings (a :: l) m := by
  cases m <;> simp [interleavings, interleavingsCons, h]

theorem cons_mem_interleavings_right {α : Type} {l m n : List α} (b : α) (h : n ∈ interleavings l m) :
    b :: n ∈ interleavings l (b :: m) := by
  cases l with
  | nil => simpa [interleavings] using h
  | cons a l => exact List.mem_append_right _ (List.mem_map_of_mem h)

/-- A list is an interleaving of its members with a property and those without. -/
theorem mem_interleavings_filter {α : Type} (p : α → Bool) (l : List α) :
    l ∈ interleavings (l.filter p) (l.filter fun a => !p a) := by
  induction l with
  | nil => exact List.mem_singleton_self _
  | cons a l ih =>
    cases ha : p a with
    | true => simpa [ha] using cons_mem_interleavings_left a ih
    | false => simpa [ha] using cons_mem_interleavings_right a ih

/-- Two sublists that together are as long as the list, one of members with a property and one of members without, are all its
members with it and all without. -/
theorem filter_eq_of_sublists {α : Type} {p : α → Bool} {l m n : List α} (hl : l.Sublist n) (hm : m.Sublist n)
    (hlp : l.filter p = l) (hmp : m.filter (fun a => !p a) = m) (hlen : n.length = l.length + m.length) :
    n.filter p = l ∧ n.filter (fun a => !p a) = m := by
  have hl' : l.Sublist (n.filter p) := hlp ▸ hl.filter p
  have hm' : m.Sublist (n.filter fun a => !p a) := hmp ▸ hm.filter _
  have hsum := List.length_eq_length_filter_add (l := n) p
  have hll := hl'.length_le
  have hml := hm'.length_le
  exact ⟨(hl'.eq_of_length (by omega)).symm, (hm'.eq_of_length (by omega)).symm⟩

/-! ### The permitted orders (60_exceptions.md R163) -/

/-- The reasons whose relative order R163 fixes first: group, trigger, ebreak and step. -/
def Reason.inFour : Reason → Bool
  | .group | .trigger | .ebreak | .step => true
  | .resethaltreq | .haltreq => false

/-- The fifteen orders are the interleavings of the four reasons with the two others. -/
theorem mem_causeOrders_of_mem_interleavings :
    ∀ l ∈ interleavings [Reason.group, .trigger, .ebreak, .step] [.resethaltreq, .haltreq], l ∈ causeOrders := by decide

theorem mem_causeOrders_iff (l : List Reason) :
    l ∈ causeOrders ↔
      l.length = 6 ∧ [Reason.group, .trigger, .ebreak, .step].Sublist l ∧ [Reason.resethaltreq, .haltreq].Sublist l := by
  constructor
  · have hall : ∀ l ∈ causeOrders, l.length = 6 ∧ [Reason.group, .trigger, .ebreak, .step].Sublist l ∧
        [Reason.resethaltreq, .haltreq].Sublist l := by decide
    exact hall l
  · rintro ⟨hlen, hfour, htwo⟩
    obtain ⟨h4, h2⟩ := filter_eq_of_sublists (p := Reason.inFour) hfour htwo rfl rfl hlen
    apply mem_causeOrders_of_mem_interleavings
    have hmem := mem_interleavings_filter Reason.inFour l
    rwa [h4, h2] at hmem

/-! ### The highest reason (60_exceptions.md R160) -/

/-- The member of a list that a search answers stands no later in it than any other member that is searched for. -/
theorem idxOf_le_of_find? {α : Type} [DecidableEq α] {p : α → Bool} {l : List α} {a b : α} (h : l.find? p = some a)
    (hb : p b = true) : l.idxOf a ≤ l.idxOf b := by
  induction l with
  | nil => cases h
  | cons c l ih =>
    by_cases hc : p c = true
    · have hca : c = a := by simpa [List.find?_cons, hc] using h
      simp [hca]
    · have hca : c ≠ a := fun e => hc (e ▸ List.find?_some h)
      have hcb : c ≠ b := fun e => hc (e ▸ hb)
      rw [List.find?_cons_of_neg hc] at h
      simpa [List.idxOf_cons_ne _ hca, List.idxOf_cons_ne _ hcb] using ih h

/-- No reason that is present stands before the highest in the hart's order. -/
theorem idxOf_highest_le {c : Config} {present : List Reason} {r q : Reason} (h : highest c present = some r)
    (hq : q ∈ present) : (causeOrder c).idxOf r ≤ (causeOrder c).idxOf q :=
  idxOf_le_of_find? h (by simpa using hq)

theorem find?_cons_eq_ite {α : Type} (p : α → Bool) (a : α) (l : List α) :
    (a :: l).find? p = if p a = true then some a else l.find? p := by
  cases h : p a <;> simp [h]

/-- The default order, row 2 of R163. -/
theorem causeOrder_default {c : Config} (h : c.causeOrder = 1) :
    causeOrder c = [.resethaltreq, .group, .haltreq, .trigger, .ebreak, .step] := by
  rw [causeOrder, h]
  rfl

theorem highest_default {c : Config} (h : c.causeOrder = 1) (present : List Reason) :
    highest c present =
      if .resethaltreq ∈ present then some .resethaltreq
      else if .group ∈ present then some .group
      else if .haltreq ∈ present then some .haltreq
      else if .trigger ∈ present then some .trigger
      else if .ebreak ∈ present then some .ebreak
      else if .step ∈ present then some .step
      else none := by
  simp only [highest, causeOrder_default h, find?_cons_eq_ite, List.find?_nil, List.contains_iff_mem]

end Sys2Proof.Machine

namespace Sys2Proof.Claims

open Sys2Proof.Machine

/-- Settles O29: the table is read off; a list with the two sublists is an interleaving of them, so one of the fifteen. -/
theorem causeOrdersAreThePermittedOnes : Obligations.CauseOrdersAreThePermittedOnes := ⟨by decide, mem_causeOrders_iff⟩

/-- Settles O30: the search goes through the hart's order, which names every reason. -/
theorem highestReasonComesFirst : Obligations.HighestReasonComesFirst := fun _ present =>
  ⟨highest_eq_none, fun _ h => ⟨mem_of_highest h, fun _ => idxOf_highest_le h⟩, fun hc => highest_default hc present⟩

end Sys2Proof.Claims

/-! Proofs of `EbreakRecordsItsOwnAddress`, `PresentReasonEntersDebugMode` and `ArmedResetHaltsByPriority`: a reason present
before the instruction at `pc` enters Debug Mode there (60_exceptions.md R165, R171), after a reset too. -/

namespace Sys2Proof.Machine

open Claims (EbreakOf Entered)

/-! ### Entering Debug Mode before an instruction (60_exceptions.md R171) -/

theorem hartStep_running {s : State} (hd : s.debugMode = false) (inputs : HartInputs) :
    s.hartStep inputs = s.runStep inputs := by
  rw [State.hartStep, hd, if_neg Bool.false_ne_true]

theorem ebreakOf_of_isEbreak {s : State} {i : Instr} (h : isEbreak s.cfg i = true) : EbreakOf s i := by
  cases i with
  | ebreak => exact .inl rfl
  | cEbreak => exact .inr ⟨rfl, by simpa [isEbreak, existsOn] using h⟩
  | csrrw | csrrs | csrrc | csrrwi | csrrsi | csrrci | dret => cases h

/-- Reason ebreak is present for an `ebreak` instruction of the hart whose governing bit is 1 (60_exceptions.md R151). -/
theorem ebreakPresent_iff (s : State) (i : Option Instr) :
    s.ebreakPresent i = true ↔ ∃ j, i = some j ∧ isEbreak s.cfg j = true ∧ s.ebreakToDebug = some true := by
  cases i <;> simp [State.ebreakPresent]

/-- Whether a reason is present before the instruction at `pc` (60_exceptions.md R171); step never is. -/
def State.reasonPresent (s : State) (inputs : HartInputs) (i : Option Instr) : Reason → Bool
  | .resethaltreq => s.resethaltPresent
  | .group => s.groupPresent
  | .haltreq => s.haltreq
  | .trigger => s.triggerPresent inputs
  | .ebreak => s.ebreakPresent i
  | .step => false

theorem mem_reasonsBefore {s : State} {inputs : HartInputs} {i : Option Instr} {r : Reason} :
    r ∈ s.reasonsBefore inputs i ↔ s.reasonPresent inputs i r = true := by
  cases r <;> simp [State.reasonsBefore, State.asyncReasons, State.reasonPresent]

/-- The instruction at `pc` where reason ebreak is present: it makes its own entry. -/
theorem executeAtPc_of_ebreakPresent {s : State} (hd : s.debugMode = false)
    (h : s.ebreakPresent (decoded s.fetch) = true) :
    s.executeAtPc = .next ((s.notePc.tick true true).enterDebug .ebreak s.base.pc) := by
  obtain ⟨i, hi, he, hg⟩ := (ebreakPresent_iff s _).mp h
  have hg' : s.notePc.ebreakToDebug = some true := hg
  rw [executeAtPc_of_decoded hi, exec_ebreakOf (s := s.notePc) (ebreakOf_of_isEbreak he)]
  simp [ebreakEffect, hd, hg']

/-- What follows an instruction that has entered Debug Mode (60_exceptions.md R171). -/
theorem afterInstr_halted {s : State} (hd : s.debugMode = true) (inputs : HartInputs) :
    s.afterInstr inputs = s.lateRequests inputs := by
  simp [State.afterInstr, hd]

section runStep
variable {s : State} {inputs : HartInputs}

theorem runStep_of_ebreak
    (hr : highest s.cfg (s.takeJump.reasonsBefore inputs (decoded s.takeJump.fetch)) = some .ebreak) :
    s.runStep inputs = mapNext (fun u => u.afterInstr inputs) s.takeJump.executeAtPc := by
  rw [← takeJump_cfg s] at hr
  simp only [State.runStep, hr]

theorem runStep_of_other {r : Reason} (hne : r ≠ .ebreak)
    (hr : highest s.cfg (s.takeJump.reasonsBefore inputs (decoded s.takeJump.fetch)) = some r) :
    s.runStep inputs =
      .next (((s.takeJump.tick false false).enterDebug r s.takeJump.base.pc).lateRequests inputs) := by
  rw [← takeJump_cfg s] at hr
  simp only [State.runStep, hr]

/-- Without a reason, and interrupts masked, the instruction at `pc` is executed. -/
theorem runStep_of_masked (hm : s.interruptsMasked = true)
    (hr : highest s.cfg (s.takeJump.reasonsBefore inputs (decoded s.takeJump.fetch)) = none) :
    s.runStep inputs = mapNext (fun u => u.afterInstr inputs) s.takeJump.executeAtPc := by
  simp [State.runStep, hr, takeJump_interruptsMasked, hm]

/-- The highest reason present enters Debug Mode at `pc`, whichever it is. -/
theorem hartStep_of_highest {r : Reason} (hd : s.debugMode = false)
    (hr : highest s.cfg (s.takeJump.reasonsBefore inputs (decoded s.takeJump.fetch)) = some r) :
    ∃ t, s.hartStep inputs = .next t ∧
      Entered (s.takeJump.lateRequests inputs) t (causeCode s.cfg r) s.takeJump.base.pc := by
  have hjd : s.takeJump.debugMode = false := (takeJump_debugMode s).trans hd
  rw [hartStep_running hd, ← takeJump_cfg s]
  by_cases he : r = .ebreak
  · subst he
    rw [runStep_of_ebreak hr, executeAtPc_of_ebreakPresent hjd (mem_reasonsBefore.mp (mem_of_highest hr)), mapNext,
      afterInstr_halted rfl]
    exact ⟨_, rfl, rfl, rfl, rfl, rfl, rfl, fun a => by simp, rfl, fun _ => rfl⟩
  · rw [runStep_of_other he hr]
    exact ⟨_, rfl, rfl, rfl, rfl, rfl, rfl, fun _ => List.mem_cons, rfl, fun _ => rfl⟩

end runStep

/-! ### The step after a reset with the halt-on-reset request armed (60_exceptions.md R155, R171) -/

/-- On a hart that leaves the entry to the priority order the reset itself does not halt. -/
theorem resetEvent_byOrder {s : State} (ho : s.cfg.resetHaltByOrder = true) : s.resetEvent = s.resetCore := by
  rcases resetEvent_cases s with h | ⟨-, hn, -⟩
  · exact h
  · simp [ho] at hn

/-- Out of reset no `ebreak` enters Debug Mode: the mode is M and `ebreakm` is 0. -/
theorem ebreakPresent_resetCore (s : State) (i : Option Instr) : s.resetCore.ebreakPresent i = false := by
  rw [Bool.eq_false_iff, Ne, ebreakPresent_iff]
  rintro ⟨j, -, -, hg⟩
  cases hg

/-- The first five orders begin with resethaltreq (60_exceptions.md R163). -/
theorem idxOf_resethaltreq_first {c : Config} (h : c.causeOrder.val ≤ 4) (r : Reason)
    (hr : (causeOrder c).idxOf r ≤ (causeOrder c).idxOf .resethaltreq) : r = .resethaltreq := by
  have hall : ∀ k : Fin 15, k.val ≤ 4 →
      (causeOrders.getD k.val []).idxOf r ≤ (causeOrders.getD k.val []).idxOf .resethaltreq → r = .resethaltreq := by
    cases r <;> decide
  exact hall c.causeOrder h hr

/-- In every order resethaltreq stands before haltreq (60_exceptions.md R163). -/
theorem idxOf_resethaltreq_lt_haltreq (c : Config) : (causeOrder c).idxOf .resethaltreq < (causeOrder c).idxOf .haltreq := by
  have hall : ∀ k : Fin 15,
      (causeOrders.getD k.val []).idxOf .resethaltreq < (causeOrders.getD k.val []).idxOf .haltreq := by decide
  exact hall c.causeOrder

/-- With no group request and no trigger, resethaltreq outranks what can be present out of reset. -/
theorem highest_resetCore_eq {s : State} {inputs : HartInputs} {i : Option Instr} {r : Reason}
    (ha : s.resethaltArmed = true) (hg : s.groupPresent = false)
    (ht : s.cfg.hasTriggers = false ∨ inputs.trigBefore = false)
    (hr : highest s.cfg (s.resetCore.reasonsBefore inputs i) = some r) : r = .resethaltreq := by
  have hpresent := mem_reasonsBefore.mp (mem_of_highest hr)
  have hle := idxOf_highest_le hr (mem_reasonsBefore (r := .resethaltreq).mpr ha)
  cases r with
  | resethaltreq => rfl
  | haltreq => exact absurd hle (Nat.not_le.mpr (idxOf_resethaltreq_lt_haltreq s.cfg))
  | group => exact absurd (hpresent.symm.trans hg) (by decide)
  | trigger =>
    rcases ht with h | h <;> simp [State.reasonPresent, State.triggerPresent, State.resetCore, h] at hpresent
  | ebreak => exact absurd (hpresent.symm.trans (ebreakPresent_resetCore s i)) (by decide)
  | step => cases hpresent

end Sys2Proof.Machine

namespace Sys2Proof.Claims

open Sys2Proof.Machine

/-- Settles O19: of the three things an `ebreak` can do, only the entry ends in Debug Mode. -/
theorem ebreakRecordsItsOwnAddress : Obligations.EbreakRecordsItsOwnAddress := by
  intro s t i hi hd h ht
  rw [exec_ebreakOf hi] at h
  rcases ebreakEffect_next h with ⟨hh, -⟩ | ⟨-, -, rfl⟩ | ⟨-, -, rfl⟩
  · simp [hd] at hh
  · rfl
  · simp [hd] at ht

/-- Settles O31: reason ebreak enters by the `ebreak` itself, every other in its place. -/
theorem presentReasonEntersDebugMode : Obligations.PresentReasonEntersDebugMode :=
  fun _ _ _ hd hr => hartStep_of_highest hd hr

/-- Settles O43: resethaltreq is present after the reset, so the next step enters Debug Mode, for it or what outranks it. -/
theorem armedResetHaltsByPriority : Obligations.ArmedResetHaltsByPriority := by
  intro s inputs ha ho
  have hpresent : .resethaltreq ∈ s.resetCore.reasonsBefore inputs (decoded s.resetCore.fetch) :=
    mem_reasonsBefore.mpr ha
  obtain ⟨r, hr⟩ := exists_highest_of_ne_nil s.cfg (List.ne_nil_of_mem hpresent)
  obtain ⟨t, ht, hdebug, hdcsr, hdpc, -⟩ := hartStep_of_highest (s := s.resetCore) rfl hr
  refine ⟨s.resetCore, t, r, by rw [State.applyEvent, resetEvent_byOrder ho], rfl, ht, hr,
    fun horder => idxOf_resethaltreq_first horder r (idxOf_highest_le hr hpresent),
    fun hg htrig => highest_resetCore_eq ha hg htrig hr, hdebug, ?_, hdpc⟩
  rw [hdcsr]
  simp [State.takeJump, State.resetCore, Dcsr.reset]

end Sys2Proof.Claims

/-! Proofs of `DebugModeIsLeftOnlyByResuming` and `HaltRequestHeldWhileHaltedHaltsAgain`: in Debug Mode a step of the hart only
counts or executes an instruction (60_exceptions.md R181, R185), and of these only `dret` leaves it (R186). -/

namespace Sys2Proof.Machine

open Claims (Entered OnlyCounted CountersFrozen)

/-! ### The ways out of Debug Mode (60_exceptions.md R186) -/

/-- An access to a CSR neither enters nor leaves Debug Mode. -/
theorem csrInstr_debugMode {i : Instr} {rd : Reg} {csr : CsrAddr} {op : CsrOp} {w : Word} {writes : Bool} {s t : State}
    (h : csrInstr i rd csr op w writes s = .next t) : t.debugMode = s.debugMode := by
  rcases csrInstr_next h with rfl | rfl | ⟨r, -, -, -, rfl | rfl⟩
  · exact s.baseInstr_debugMode _ _
  · exact s.raise_debugMode _
  · rfl
  · cases r <;> rfl

section leaving
variable {s t : State} (hd : s.debugMode = true) (ht : t.debugMode = false)
include hd ht

theorem ebreakEffect_stays : ebreakEffect s ≠ .next t := by
  intro h
  rcases ebreakEffect_next h with ⟨-, rfl⟩ | ⟨hn, -⟩ | ⟨hn, -⟩
  · simp [hd] at ht
  · simp [hd] at hn
  · simp [hd] at hn

theorem csrInstr_stays {i : Instr} {rd : Reg} {csr : CsrAddr} {op : CsrOp} {w : Word} {writes : Bool} :
    csrInstr i rd csr op w writes s ≠ .next t := by
  intro h
  simp [csrInstr_debugMode h, hd] at ht

theorem baseInstr_stays {bytes : List Byte} {n : Option Nat} : t ≠ s.baseInstr bytes n := by
  rintro rfl
  simp [hd] at ht

/-- The one instruction that leaves Debug Mode is `dret`, on a hart that has it. -/
theorem exec_leaves {i : Instr} (h : exec i s = .next t) :
    i = .dret ∧ s.cfg.hasDret = true ∧ t = (s.tick true false).resume := by
  cases i with
  | csrrw | csrrs | csrrc | csrrwi | csrrsi | csrrci => exact absurd h (csrInstr_stays hd ht)
  | ebreak => exact absurd h (ebreakEffect_stays hd ht)
  | cEbreak =>
    simp only [exec, execCEbreak] at h
    split at h
    · exact absurd h (ebreakEffect_stays hd ht)
    · exact absurd (Host.Outcome.next.inj h).symm (baseInstr_stays hd ht)
  | dret =>
    cases hh : s.cfg.hasDret with
    | true =>
      rw [exec_dret_halted hd hh] at h
      exact ⟨rfl, rfl, (Host.Outcome.next.inj h).symm⟩
    | false =>
      rw [exec_dret_elsewhere (.inr hh)] at h
      cases h
      simp [hd] at ht

end leaving

/-- Resumed at the address in `dpc`, in the mode of `v` and `prv` (60_exceptions.md R180). -/
def ResumedTo (s t : State) : Prop := t.base.pc = s.dpc ∧ t.mode = s.savedMode

/-- `dret` is what a halted hart executes next: it stands first in the Program Buffer, or in the code a halted hart executes of
its own (00_scope.md P27). -/
def DretNext (s : State) : Prop :=
  s.cfg.hasDret = true ∧
    ((∃ bytes, s.progbuf = some bytes ∧ decoded bytes = some .dret) ∨
     (s.progbuf = none ∧ s.cfg.debugExec = .implementation ∧
      decoded (Config.debugCode s.cfg s.draws s.base) = some .dret))

theorem decoded_of_decode {bytes rest : List Byte} {i : Instr} (h : decode bytes = .ok (i, rest)) :
    decoded bytes = some i := by
  rw [decoded, h]

theorem haltedStep_leaves {s t : State} (hd : s.debugMode = true) (ht : t.debugMode = false) (h : s.haltedStep = .next t) :
    s.cfg.hasDret = true ∧ s.cfg.debugExec = .implementation ∧
      decoded (Config.debugCode s.cfg s.draws s.base) = some .dret ∧ ResumedTo s t := by
  have hfd : s.freshScratch.debugMode = true := (freshScratch_debugMode s).trans hd
  rcases haltedStep_next h with rfl | ⟨hexec, ⟨i, hi, he⟩ | ⟨n, hb⟩⟩
  · simp [hd] at ht
  · obtain ⟨rfl, hdret, rfl⟩ := exec_leaves hfd ht he
    rw [s.freshScratch_cfg] at hdret
    refine ⟨hdret, hexec, hi, ?_⟩
    rw [(freshScratch_eq s).1]
    exact ⟨rfl, rfl⟩
  · exact absurd hb (baseInstr_stays hfd ht)

theorem progbufInstr_leaves {s t : State} {bytes : List Byte} (hd : s.debugMode = true) (ht : t.debugMode = false)
    (h : s.progbufInstr bytes = .next t) : s.cfg.hasDret = true ∧ decoded bytes = some .dret ∧ ResumedTo s t := by
  rcases progbufInstr_next h with ⟨i, rest, hi, he⟩ | ⟨n, hb⟩ | rfl
  · obtain ⟨rfl, hdret, rfl⟩ := exec_leaves (s := s.setProgbuf (some rest)) hd ht he
    exact ⟨hdret, decoded_of_decode hi, rfl, rfl⟩
  · exact absurd hb (baseInstr_stays (s := s.setProgbuf (some (bytes.drop n))) hd ht)
  · simp [hd] at ht

theorem hartStep_halted {s : State} (hd : s.debugMode = true) (inputs : HartInputs) :
    s.hartStep inputs = mapNext (fun u => u.lateRequests inputs) s.debugStep := by
  rw [State.hartStep, if_pos hd]

theorem hartStep_leaves {s t : State} {inputs : HartInputs} (hd : s.debugMode = true) (ht : t.debugMode = false)
    (h : s.hartStep inputs = .next t) : DretNext s ∧ ResumedTo s t := by
  rw [hartStep_halted hd] at h
  obtain ⟨u, hu, rfl⟩ := mapNext_eq_next h
  rcases debugStep_next hu with ⟨hp, hh⟩ | ⟨-, rfl⟩ | ⟨bytes, v, hp, hv, rfl⟩
  · obtain ⟨hdret, hexec, hcode, hres⟩ := haltedStep_leaves (t := u) hd ht hh
    exact ⟨⟨hdret, .inr ⟨hp, hexec, hcode⟩⟩, hres⟩
  · rcases closeProgbuf_cases ((s.tick false false).setProgbuf none) with hc | ⟨-, -, hc⟩ <;>
      simp [hc, hd] at ht
  · have hclose : v.closeProgbuf.debugMode = v.debugMode ∧ v.closeProgbuf.base = v.base := by
      rcases closeProgbuf_cases v with hc | ⟨-, -, hc⟩ <;> rw [hc] <;> exact ⟨rfl, rfl⟩
    obtain ⟨hdret, hcode, hpc, hmode⟩ := progbufInstr_leaves hd (hclose.1.symm.trans ht) hv
    exact ⟨⟨hdret, .inl ⟨bytes, hp, hcode⟩⟩, (congrArg Base.pc hclose.2).trans hpc,
      (congrArg (fun b : Base => (b.virt, b.priv)) hclose.2).trans hmode⟩

/-- Of the moves only `ResumeReq` leaves Debug Mode, and then to `dpc`. -/
theorem move_leaves {s t : State} {e : Event} (hd : s.debugMode = true) (ht : t.debugMode = false) (hm : e.IsMove)
    (h : s.applyEvent e = .next t) : e = .resumeReq ∧ ResumedTo s t := by
  cases e with
  | hart inputs => exact absurd rfl (hm.1 inputs)
  | reset => exact absurd rfl hm.2
  | resumeReq =>
    rw [State.applyEvent, if_pos hd] at h
    cases h
    exact ⟨rfl, rfl, rfl⟩
  | abstractRead r p =>
    obtain ⟨-, rfl⟩ := abstractRead_next h
    rw [startProgbuf_eq] at ht
    simp [hd] at ht
  | abstractWrite r w p =>
    obtain ⟨-, -, rfl⟩ := abstractWrite_next h
    rw [startProgbuf_eq, writeCsr_frame] at ht
    simp [hd] at ht
  | abstractReadDpcRunning => simp [State.applyEvent, State.abstractReadDpcRunning, hd] at h
  | abstractWriteDpcRunning w => simp [State.applyEvent, State.abstractWriteDpcRunning, hd] at h
  | execProgbuf instrs =>
    rw [State.applyEvent, if_pos hd] at h
    cases h
    rw [startProgbuf_eq] at ht
    simp [hd] at ht
  | haltReq | clearHaltReq | armResetHaltReq | disarmResetHaltReq | nmi _ | mtimeAdvance _ | haltGroup _ | interrupt _ =>
    cases h
    simp [hd] at ht

/-! ### A halted hart that executes nothing (60_exceptions.md R181, R190) -/

/-- Counters that `stopcount` freezes do not count. -/
theorem countersFrozen_tick {s : State} {entering : Bool} (h : s.countersFrozen entering = true) (mayRetire : Bool) :
    CountersFrozen s (s.tick mayRetire entering) := by
  refine ⟨by simp [State.tick, h], by simp [State.tick, h], fun hmulti hcycle => ?_⟩
  simp [State.tick, State.cycleFrozen, h, hmulti, hcycle]

theorem countersFrozen_halted {s : State} (hd : s.debugMode = true) (hs : s.dcsr.stopcount = true) (entering : Bool) :
    s.countersFrozen entering = true := by
  simp [State.countersFrozen, hd, hs]

/-- A halted hart without an instruction to execute, of the Program Buffer or its own, only counts. -/
theorem haltedStep_idle {s : State}
    (h : s.cfg.debugExec = .progbufOnly ∨ Config.debugCode s.cfg s.draws s.base = []) :
    s.haltedStep = .next (s.tick false false) := by
  unfold State.haltedStep
  split
  · rfl
  · rename_i hexec
    have hcode : Config.debugCode s.cfg s.draws s.base = [] := h.resolve_left (by simp [hexec])
    rw [hcode]

theorem debugStep_of_none {s : State} (h : s.progbuf = none) : s.debugStep = s.haltedStep := by
  rw [State.debugStep, h]

theorem debugStep_of_exhausted {s : State} (h : s.progbuf = some []) :
    s.debugStep = .next ((s.tick false false).setProgbuf none).closeProgbuf := by
  rw [State.debugStep, h]

/-- While the Program Buffer executes, and on a hart where that does not clobber `dpc`, nothing follows its instruction
(10_state.md R40). -/
theorem closeProgbuf_unclobbered {s : State} (h : s.progbuf.isSome = true ∨ s.cfg.progbufClobbers = false) :
    s.closeProgbuf = s := by
  rcases closeProgbuf_cases s with hc | ⟨hp, hc, -⟩
  · exact hc
  · simp [hp, hc] at h

theorem closeProgbuf_clobbered {s : State} (hp : s.progbuf = none) (hc : s.cfg.progbufClobbers = true) :
    s.closeProgbuf = { s with dpc := instrAddress s.cfg (s.draw .clobberedDpc), draws := s.draws + 1 } := by
  simp only [State.closeProgbuf, hp, State.clobberDpc, hc, if_true]

/-- Without late requests nothing becomes present. -/
@[simp] theorem lateRequests_default (s : State) : s.lateRequests {} = s := by
  simp [State.lateRequests]

/-- A halt request outranks what else can be present in the default order without resethaltreq and group
(60_exceptions.md R163). -/
theorem highest_haltreq {s : State} {inputs : HartInputs} {i : Option Instr} (hh : s.haltreq = true)
    (hr : s.resethaltPresent = false) (hg : s.groupPresent = false) (hc : s.cfg.causeOrder = 1) :
    highest s.cfg (s.reasonsBefore inputs i) = some .haltreq := by
  simp [highest_default hc, mem_reasonsBefore, State.reasonPresent, hh, hr, hg]

end Sys2Proof.Machine

namespace Sys2Proof.Claims

open Sys2Proof.Machine

/-- Settles O27: a step of the hart leaves Debug Mode by `dret`, a move by `ResumeReq`; what is left is a reset. -/
theorem debugModeIsLeftOnlyByResuming : Obligations.DebugModeIsLeftOnlyByResuming := by
  intro s t h hd ht
  obtain ⟨-, -, ha⟩ := step_next h
  rcases advance_next ha with ⟨-, inputs, hh, -⟩ | ⟨e, rest, henv, he⟩
  · obtain ⟨hdret, hpc, hmode⟩ := hartStep_leaves hd ht hh
    exact .inr ⟨hpc, hmode, .inr hdret⟩
  · by_cases hreset : e = .reset
    · exact .inl (by simp [ResetNext, henv, hreset])
    by_cases hhart : ∃ inputs, e = .hart inputs
    · obtain ⟨inputs, rfl⟩ := hhart
      obtain ⟨hdret, hpc, hmode⟩ := hartStep_leaves (s := s.setEnv rest) hd ht he
      exact .inr ⟨hpc, hmode, .inr hdret⟩
    · obtain ⟨rfl, hpc, hmode⟩ := move_leaves (s := s.setEnv rest) hd ht ⟨not_exists.mp hhart, hreset⟩ he
      exact .inr ⟨hpc, hmode, .inl (by simp [henv])⟩

/-- Settles O28: the idle steps count and no more; after the resume the halt request is the highest reason. -/
theorem haltRequestHeldWhileHaltedHaltsAgain : Obligations.HaltRequestHeldWhileHaltedHaltsAgain := by
  refine ⟨fun s inputs hd hp hidle => ?_, fun s inputs hd hp => ?_, fun s _ hh hr hg hj hc => ?_⟩
  · rw [hartStep_halted hd, debugStep_of_none hp, haltedStep_idle hidle]
    exact ⟨_, rfl, ⟨rfl, fun _ => rfl⟩, fun hs => countersFrozen_tick (countersFrozen_halted hd hs false) false⟩
  · rw [hartStep_halted hd, debugStep_of_exhausted hp]
    have hfrozen (hs : s.dcsr.stopcount = true) : CountersFrozen s (s.tick false false) :=
      countersFrozen_tick (countersFrozen_halted hd hs false) false
    cases hc : s.cfg.progbufClobbers with
    | true =>
      rw [closeProgbuf_clobbered (s := (s.tick false false).setProgbuf none) rfl hc]
      exact ⟨_, rfl, ⟨rfl, fun _ => rfl⟩, nofun, fun _ => instrAddress_instrAddress _ _, hfrozen⟩
    | false =>
      rw [closeProgbuf_unclobbered (s := (s.tick false false).setProgbuf none) (.inr hc)]
      exact ⟨_, rfl, ⟨rfl, fun _ => rfl⟩, fun _ => rfl, nofun, hfrozen⟩
  · have hnot : ¬ JumpDue s.resume := by simp [JumpDue, hj]
    have hjump := takeJump_of_not_due hnot
    have hhigh : highest s.resume.cfg
        (s.resume.takeJump.reasonsBefore {} (decoded s.resume.takeJump.fetch)) = some .haltreq := by
      rw [hjump]
      exact highest_haltreq hh hr hg hc
    have hstep := hartStep_of_highest (s := s.resume) rfl hhigh
    rwa [hjump, lateRequests_default] at hstep

end Sys2Proof.Claims

/-! Proofs of `StepExecutesOneInstruction`, `RunningStepExecutesDecodedInstruction`, `EachRequestSetsItsOwnFlag`,
`DebugStepExecutesDecodedInstruction` and `RunsOutsideTheSpecAreRefused`: what `step` takes next (60_exceptions.md R185), and
how a step of the hart ends that executes an instruction or takes an interrupt (60_exceptions.md R171, R174). -/

namespace Sys2Proof.Machine

open Claims (Steps Quiet JumpDue InterruptNext SteppedTo CarriedOn WithLateRequests EbreakOf)

/-! ### The next thing to happen (60_exceptions.md R185, 20_memory.md R82) -/

theorem step_of_steps {s : State} (h : Steps s) : step s = s.advance := by
  obtain ⟨ho, hs⟩ := h
  simp only [step, ho, hs]

theorem step_of_no_event {s : State} (h : Steps s) (he : s.env = []) : step s = s.hartStep {} := by
  rw [step_of_steps h, State.advance, he]

section event
variable {s : State} {e : Event} {rest : List Event} (h : Steps s) (henv : s.env = e :: rest)
include h henv

theorem step_of_event (hw : e.waits = false ∨ s.progbuf = none) : step s = (s.setEnv rest).applyEvent e := by
  have hnot : (s.progbuf.isSome && e.waits) = false := by
    rcases hw with hw | hp
    · simp [hw]
    · simp [hp]
  simp [step_of_steps h, State.advance, henv, hnot]

theorem step_of_waiting (hw : e.waits = true) (hp : s.progbuf.isSome = true) : step s = s.hartStep {} := by
  simp [step_of_steps h, State.advance, henv, hw, hp]

end event

/-! ### The end of a step outside Debug Mode (60_exceptions.md R171) -/

theorem afterInstr_running {s : State} (hd : s.debugMode = false) (hs : s.dcsr.step = false) (inputs : HartInputs) :
    s.afterInstr inputs = { s.lateRequests inputs with
      trigAfterPending := s.cfg.hasTriggers && inputs.trigAfter
      pendingJump := s.pendingJump.map fun (j : Nat × Word) => (j.1 - 1, j.2) } := by
  simp [State.afterInstr, hd, hs]

@[simp] theorem afterInstr_irqReady (s : State) (inputs : HartInputs) : (s.afterInstr inputs).irqReady = s.irqReady := by
  rcases afterInstr_cases s inputs with ⟨-, h⟩ | ⟨-, u, rfl, h | ⟨-, r, -, h⟩⟩ <;> rw [h] <;> rfl

/-- An instruction that enters Debug Mode is an `ebreak` at `pc`, whose entry that is. -/
theorem ExecShape.entered {s t : State} (h : ExecShape s t) (hs : s.debugMode = false) (ht : t.debugMode = true) :
    t = (s.tick true true).enterDebug .ebreak s.base.pc := by
  cases h with
  | base bytes n => simp [hs] at ht
  | illegal instr => simp [hs] at ht
  | breakpoint => simp [hs] at ht
  | csrRead r rd h => simp [State.csrAccessible, hs] at h
  | csrWrite r rd w h => simp [State.csrAccessible, hs] at h
  | enter => rfl
  | endProgbuf h => simp [hs] at h
  | resume h => simp [hs] at h

/-- The instruction at `pc`, where it goes on running: all of the debug layer is as it was, but its address is noted. -/
theorem executeAtPc_running {s u : State} (hd : s.debugMode = false) (h : s.executeAtPc = .next u)
    (hu : u.debugMode = false) : u = { s.notePc with draws := u.draws, base := u.base } :=
  (executeAtPc_shape h).running hd hu

theorem executeAtPc_entered {s u : State} (hd : s.debugMode = false) (h : s.executeAtPc = .next u)
    (hu : u.debugMode = true) : u = (s.notePc.tick true true).enterDebug .ebreak s.base.pc :=
  (executeAtPc_shape h).entered hd hu

/-- With `step` set, an instruction that goes on running is followed by the entry (60_exceptions.md R170). -/
theorem steppedTo_executeAtPc {s u : State} (hd : s.debugMode = false) (hs : s.dcsr.step = true)
    (ha : s.asyncReasons = []) (h : s.executeAtPc = .next u) (hu : u.debugMode = false) (inputs : HartInputs) :
    SteppedTo s.cfg u (u.afterInstr inputs) inputs := by
  have hrun := executeAtPc_running hd h hu
  rw [← executeAtPc_cfg h]
  exact steppedTo_afterInstr hu ((congrArg (fun v => v.dcsr.step) hrun).trans hs)
    ((congrArg State.asyncReasons hrun).trans ha) inputs

/-! ### A step in which an interrupt is taken (60_exceptions.md R174) -/

/-- With no reason present and no jump due, an interrupt that is ready and not masked is taken. -/
theorem hartStep_of_interruptNext {s : State} {inputs : HartInputs} (hd : s.debugMode = false)
    (h : InterruptNext s inputs) : s.hartStep inputs = s.interruptStep inputs := by
  obtain ⟨hready, hmask, hreasons, hj⟩ := h
  simp [hartStep_running hd, State.runStep, takeJump_of_not_due hj, hreasons, hready, hmask]

theorem asyncReasons_of_reasonsBefore {s : State} {inputs : HartInputs} {i : Option Instr}
    (h : s.reasonsBefore inputs i = []) : s.asyncReasons = [] := by
  simp only [State.reasonsBefore, List.append_eq_nil_iff] at h
  exact h.1.1

/-- The trap is the step, but where the hart executes the handler's first instruction too in a single step. -/
theorem interruptStep_trap {s : State} (h : s.cfg.stepRunsHandler = false ∨ s.dcsr.step = false) (inputs : HartInputs) :
    s.interruptStep inputs = .next (s.takeInterrupt.afterInstr inputs) := by
  have hnot : (s.cfg.stepRunsHandler && s.dcsr.step) = false := by rcases h with h | h <;> simp [h]
  simp [State.interruptStep, hnot]

theorem interruptStep_handler {s : State} (hh : s.cfg.stepRunsHandler = true) (hs : s.dcsr.step = true)
    (inputs : HartInputs) :
    s.interruptStep inputs = mapNext (fun u => u.afterInstr inputs) s.takeInterrupt.executeAtPc := by
  simp [State.interruptStep, hh, hs]

/-- Taking an interrupt leaves the debug layer as it was, but for `irqReady` and the noted addresses. -/
theorem takeInterrupt_frame (s : State) :
    s.takeInterrupt = { s with
      irqReady := false, pcHistory := s.base.pc :: s.pcHistory, draws := s.takeInterrupt.draws
      base := s.takeInterrupt.base } := rfl

theorem takeInterrupt_asyncReasons (s : State) : s.takeInterrupt.asyncReasons = s.asyncReasons := rfl

theorem isInstrAddress_takeInterrupt (s : State) : IsInstrAddress s.cfg s.takeInterrupt.base.pc :=
  instrAddress_instrAddress _ _

theorem supported_takeInterrupt (s : State) : supported s.cfg s.takeInterrupt.mode = true :=
  supported_supportedOrM _ _

/-! ### The Program Buffer's next instruction -/

theorem encode_ne_nil (i : Instr) : encode i ≠ [] := by
  intro h
  have hlen := instrLength_encode i []
  simp [h, instrLength] at hlen

theorem progbufInstr_encode (s : State) (i : Instr) (rest : List Byte) :
    s.progbufInstr (encode i ++ rest) = exec i (s.setProgbuf (some rest)) := by
  rw [State.progbufInstr, decode_encode]

theorem debugStep_encode {s : State} {i : Instr} {rest : List Byte} (h : s.progbuf = some (encode i ++ rest)) :
    s.debugStep = mapNext State.closeProgbuf (exec i (s.setProgbuf (some rest))) := by
  rw [← progbufInstr_encode]
  obtain ⟨b, bs, hb⟩ := List.exists_cons_of_ne_nil (List.append_ne_nil_of_left_ne_nil (encode_ne_nil i) rest)
  rw [State.debugStep, h, hb]

theorem hartStep_halted_default {s : State} (hd : s.debugMode = true) : s.hartStep {} = s.debugStep := by
  rw [hartStep_halted hd]
  cases s.debugStep <;> simp [mapNext]

end Sys2Proof.Machine

namespace Sys2Proof.Claims

open Sys2Proof.Machine

/-- Settles O32: the instruction, the interrupt, or the handler's first instruction after it, and then the entry of R171. -/
theorem stepExecutesOneInstruction : Obligations.StepExecutesOneInstruction := by
  refine ⟨fun s u inputs hd hs hq _ h hu => ?_, fun s inputs hd hs _ hi => ?_⟩
  · obtain ⟨ha, ht, hirq, hj⟩ := hq
    exact ⟨u.afterInstr inputs, by rw [hartStep_of_quiet hd hj ha ht (.inr hirq), h, mapNext],
      steppedTo_executeAtPc hd hs ha h hu inputs⟩
  · have ⟨_, _, hreasons, _⟩ := hi
    have ha := (takeInterrupt_asyncReasons s).trans (asyncReasons_of_reasonsBefore hreasons)
    rw [hartStep_of_interruptNext hd hi]
    refine ⟨fun hh => ⟨_, interruptStep_trap (.inl hh) inputs,
        steppedTo_afterInstr (s := s.takeInterrupt) hd hs ha inputs, by simp⟩,
      fun hh u hu => ⟨u.afterInstr inputs, by rw [interruptStep_handler hh hs, hu, mapNext], ?_⟩⟩
    cases hud : u.debugMode with
    | true =>
      have hentered := executeAtPc_entered (s := s.takeInterrupt) hd hu hud
      rw [afterInstr_halted hud, hentered]
      exact ⟨rfl, nofun, fun _ => ⟨rfl, rfl, rfl⟩⟩
    | false =>
      have hrun := executeAtPc_running (s := s.takeInterrupt) hd hu hud
      exact ⟨(afterInstr_irqReady u inputs).trans (congrArg State.irqReady hrun),
        fun _ => steppedTo_executeAtPc (s := s.takeInterrupt) hd hs ha hu hud inputs, nofun⟩

/-- Settles O45: what waits is read off the events, the step off what stands next in the list. -/
theorem eachRequestSetsItsOwnFlag : Obligations.EachRequestSetsItsOwnFlag := by
  refine ⟨fun e => by cases e <;> simp [Event.waits], fun s => step_of_no_event,
    fun s e rest h henv => ⟨step_of_event h henv, step_of_waiting h henv⟩, fun s rest h => ?_⟩
  exact ⟨fun henv => step_of_event h henv (.inl rfl), fun henv => step_of_event h henv (.inl rfl),
    fun henv => step_of_event h henv (.inl rfl), fun henv => step_of_event h henv (.inl rfl),
    fun _ henv => step_of_event h henv (.inl rfl), fun _ henv => step_of_event h henv (.inl rfl),
    fun _ henv => step_of_event h henv (.inl rfl)⟩

/-- Settles O52: the run is looked at before anything happens, and each move checks its own precondition. -/
theorem runsOutsideTheSpecAreRefused : Obligations.RunsOutsideTheSpecAreRefused := by
  refine ⟨fun s => ⟨fun hv => ?_, fun hv => ?_, fun hv hr hn => ?_⟩, fun s r w p => ⟨fun hd => ?_, fun hd hp => ?_⟩,
    fun s bytes hd => ?_, fun s w => ⟨fun h => ?_, fun h => ?_⟩⟩
  · simp [step, State.outsideSpec, hv]
  · simp [step, State.outsideSpec, hv]
  · simp [step, State.outsideSpec, hv, hr, State.nmip, hn]
  · simp [State.applyEvent, State.abstractRead, State.abstractWrite, hd]
  · simp [State.applyEvent, State.abstractRead, State.abstractWrite, hd, hp]
  · simp [State.applyEvent, hd]
  · rcases h with hd | hc
    · simp [State.applyEvent, State.abstractReadDpcRunning, hd]
    · simp [State.applyEvent, State.abstractReadDpcRunning, hc]
  · rcases h with hd | hc
    · simp [State.applyEvent, State.abstractWriteDpcRunning, hd]
    · simp [State.applyEvent, State.abstractWriteDpcRunning, hc]

/-- Settles O56: with nothing before it the instruction at `pc` comes next, or the interrupt; then the end of the step. -/
theorem runningStepExecutesDecodedInstruction : Obligations.RunningStepExecutesDecodedInstruction := by
  refine ⟨fun s i h henv hd hq _ hi => ?_, fun s inputs rest h henv => step_of_event h henv (.inl rfl),
    fun s inputs hd hq => ⟨fun i => executeAtPc_of_decoded, fun u hu => ⟨u.afterInstr inputs, ?_, fun hud => ?_,
      fun hud hs => ?_⟩⟩, fun s inputs hd hs hi => ⟨s.takeInterrupt.afterInstr inputs, ?_, ?_⟩⟩
  · obtain ⟨ha, ht, hirq, hj⟩ := hq
    rw [step_of_no_event h henv, hartStep_of_quiet hd hj ha ht (.inr hirq), executeAtPc_of_decoded hi]
  · obtain ⟨ha, ht, hirq, hj⟩ := hq
    rw [hartStep_of_quiet hd hj ha ht (.inr hirq), hu, mapNext]
  · exact afterInstr_halted hud inputs
  · have hrun := executeAtPc_running hd hu hud
    have hus : u.dcsr.step = false := (congrArg (fun v => v.dcsr.step) hrun).trans hs
    have hjump : u.pendingJump = s.pendingJump := (congrArg State.pendingJump hrun).trans rfl
    rw [CarriedOn, ← executeAtPc_cfg hu, ← hjump]
    exact afterInstr_running hud hus inputs
  · rw [hartStep_of_interruptNext hd hi, interruptStep_trap (.inr hs)]
  · rw [afterInstr_running (s := s.takeInterrupt) hd hs]
    exact ⟨rfl, isInstrAddress_takeInterrupt s, supported_takeInterrupt s, takeInterrupt_frame s⟩

/-- Settles O57: the bytes of the buffer decode to the instruction, and at the end of the buffer `dpc` may be clobbered. -/
theorem debugStepExecutesDecodedInstruction : Obligations.DebugStepExecutesDecodedInstruction := by
  refine ⟨fun s bytes hd => ⟨s.commandBoundary.setProgbuf (some bytes),
    by simp [State.applyEvent, hd, State.startProgbuf], rfl, rfl, rfl, rfl, rfl, rfl⟩, fun s i rest h henv hd _ hp => ?_⟩
  have hstep : step s = mapNext State.closeProgbuf (exec i (s.setProgbuf (some rest))) := by
    rw [step_of_no_event h henv, hartStep_halted_default hd, debugStep_encode hp]
  refine ⟨hstep, fun u t hu ht => ?_⟩
  have hcfg : u.cfg = s.cfg := (exec_cfg hu).trans (s.setProgbuf_cfg _)
  rw [hstep, hu] at ht
  cases ht
  rw [← hcfg]
  refine ⟨?_, closeProgbuf_unclobbered, fun hnone hc => ?_⟩
  · rcases closeProgbuf_cases u with hc | ⟨-, -, hc⟩ <;> rw [hc]
  · rw [closeProgbuf_clobbered hnone hc]
    exact instrAddress_instrAddress _ _

end Sys2Proof.Claims

/-! Proofs of `StepieZeroMasksInterrupts` and `DebugModeTakesNoInterrupt` (60_exceptions.md R174, R184): nothing the hart does
but taking an interrupt reads or writes `irqReady`, so every such operation commutes with setting it. -/

namespace Sys2Proof.Machine

/-- Set whether an interrupt is ready. -/
def State.setIrq (ready : Bool) (s : State) : State := { s with irqReady := ready }

/-- The same in the next state of an outcome. -/
abbrev setIrqNext (ready : Bool) (o : Host.Outcome State Fault Refusal) : Host.Outcome State Fault Refusal :=
  mapNext (State.setIrq ready) o

section setIrq
variable (b : Bool) (s : State)

theorem ite_setIrq {p : Prop} [Decidable p] {s t s' t' : State} (hs : s' = s.setIrq b) (ht : t' = t.setIrq b) :
    (if p then s' else t') = (if p then s else t).setIrq b := by
  split
  · exact hs
  · exact ht

theorem ite_setIrqNext {p : Prop} [Decidable p] {o q o' q' : Host.Outcome State Fault Refusal}
    (ho : o' = setIrqNext b o) (hq : q' = setIrqNext b q) :
    (if p then o' else q') = setIrqNext b (if p then o else q) := by
  split
  · exact ho
  · exact hq

/-- What follows an operation may be done before or after. -/
theorem mapNext_setIrqNext {f : State → State} (hf : ∀ t : State, f (t.setIrq b) = (f t).setIrq b)
    (o : Host.Outcome State Fault Refusal) : mapNext f (setIrqNext b o) = setIrqNext b (mapNext f o) := by
  cases o with
  | next t => exact congrArg Host.Outcome.next (hf t)
  | fault r => rfl
  | refused r => rfl

/-! ### The operations on the state -/

theorem raise_setIrq (e : Exc) : (s.setIrq b).raise e = (s.raise e).setIrq b := ite_setIrq b rfl rfl

theorem baseInstr_setIrq (bytes : List Byte) (n : Option Nat) :
    (s.setIrq b).baseInstr bytes n = (s.baseInstr bytes n).setIrq b := ite_setIrq b rfl rfl

theorem writeCsr_setIrq (r : DebugCsr) (w : Word) : (s.setIrq b).writeCsr r w = (s.writeCsr r w).setIrq b := by
  cases r <;> rfl

theorem closeProgbuf_setIrq : (s.setIrq b).closeProgbuf = s.closeProgbuf.setIrq b :=
  ite_setIrq b (ite_setIrq b rfl rfl) rfl

theorem freshScratch_setIrq : (s.setIrq b).freshScratch = s.freshScratch.setIrq b := ite_setIrq b rfl rfl

theorem takeJump_setIrq : (s.setIrq b).takeJump = s.takeJump.setIrq b := by
  have hj : (s.setIrq b).pendingJump = s.pendingJump := rfl
  rw [State.takeJump, State.takeJump, hj]
  split <;> rfl

theorem afterInstr_setIrq (inputs : HartInputs) : (s.setIrq b).afterInstr inputs = (s.afterInstr inputs).setIrq b := by
  cases hd : s.debugMode with
  | true =>
    rw [afterInstr_halted hd, afterInstr_halted (s := s.setIrq b) hd]
    rfl
  | false =>
    cases hs : s.dcsr.step with
    | false =>
      rw [afterInstr_running hd hs, afterInstr_running (s := s.setIrq b) hd hs]
      rfl
    | true =>
      obtain ⟨r, hr, hend⟩ := afterInstr_of_step hd hs inputs
      obtain ⟨q, hq, hend'⟩ := afterInstr_of_step (s := s.setIrq b) hd hs inputs
      have hqr : q = r := Option.some.inj (hq.symm.trans hr)
      rw [hend, hend', hqr]
      rfl

/-! ### Instructions -/

theorem csrInstr_setIrq (i : Instr) (rd : Reg) (csr : CsrAddr) (op : CsrOp) (w : Word) (writes : Bool) :
    csrInstr i rd csr op w writes (s.setIrq b) = setIrqNext b (csrInstr i rd csr op w writes s) := by
  unfold csrInstr
  split
  · exact congrArg Host.Outcome.next (baseInstr_setIrq b s _ _)
  · refine ite_setIrqNext b (ite_setIrqNext b rfl ?_) ?_
    · exact congrArg Host.Outcome.next (ite_setIrq b (writeCsr_setIrq b ((s.tick true false).setReg rd _) _ _) rfl)
    · exact congrArg Host.Outcome.next (raise_setIrq b s _)

theorem ebreakEffect_setIrq : ebreakEffect (s.setIrq b) = setIrqNext b (ebreakEffect s) := by
  have he : (s.setIrq b).ebreakToDebug = s.ebreakToDebug := rfl
  refine ite_setIrqNext b rfl ?_
  rw [he]
  split
  · rfl
  · exact congrArg Host.Outcome.next (raise_setIrq b s _)
  · rfl

theorem exec_setIrq (i : Instr) : exec i (s.setIrq b) = setIrqNext b (exec i s) := by
  cases i with
  | csrrw | csrrs | csrrc | csrrwi | csrrsi | csrrci => exact csrInstr_setIrq b s ..
  | ebreak => exact ebreakEffect_setIrq b s
  | cEbreak => exact ite_setIrqNext b (ebreakEffect_setIrq b s) (congrArg Host.Outcome.next (baseInstr_setIrq b s _ _))
  | dret => exact ite_setIrqNext b rfl (congrArg Host.Outcome.next (raise_setIrq b s _))

/-! ### The hart's step -/

theorem executeAtPc_setIrq : (s.setIrq b).executeAtPc = setIrqNext b s.executeAtPc := by
  have hf : (s.setIrq b).fetch = s.fetch := rfl
  rw [State.executeAtPc, State.executeAtPc, hf]
  split
  · exact exec_setIrq b s.notePc _
  · exact congrArg Host.Outcome.next (baseInstr_setIrq b s.notePc _ _)

theorem haltedStep_setIrq : (s.setIrq b).haltedStep = setIrqNext b s.haltedStep := by
  have hc : (s.setIrq b).cfg = s.cfg := rfl
  have hd : Config.debugCode s.cfg (s.setIrq b).draws (s.setIrq b).base = Config.debugCode s.cfg s.draws s.base := rfl
  rw [State.haltedStep, State.haltedStep, hc, hd, freshScratch_setIrq]
  split
  · rfl
  · split
    · rfl
    · split
      · exact exec_setIrq b _ _
      · exact congrArg Host.Outcome.next (baseInstr_setIrq b _ _ _)

theorem progbufInstr_setIrq (bytes : List Byte) :
    (s.setIrq b).progbufInstr bytes = setIrqNext b (s.progbufInstr bytes) := by
  have hraise : .next ((s.setIrq b).raise (.illegalInstruction bytes)) =
      setIrqNext b (.next (s.raise (.illegalInstruction bytes))) := congrArg Host.Outcome.next (raise_setIrq b s _)
  unfold State.progbufInstr
  split
  · exact exec_setIrq b (s.setProgbuf _) _
  · split
    · exact ite_setIrqNext b (congrArg Host.Outcome.next (baseInstr_setIrq b (s.setProgbuf _) _ _)) hraise
    · exact hraise

theorem debugStep_setIrq : (s.setIrq b).debugStep = setIrqNext b s.debugStep := by
  have hp : (s.setIrq b).progbuf = s.progbuf := rfl
  rw [State.debugStep, State.debugStep, hp]
  split
  · exact haltedStep_setIrq b s
  · exact congrArg Host.Outcome.next (closeProgbuf_setIrq b ((s.tick false false).setProgbuf none))
  · rw [progbufInstr_setIrq]
    exact mapNext_setIrqNext b (closeProgbuf_setIrq b) _

theorem hartStep_setIrq_halted (hd : s.debugMode = true) (inputs : HartInputs) :
    (s.setIrq b).hartStep inputs = setIrqNext b (s.hartStep inputs) := by
  rw [hartStep_halted hd, hartStep_halted (s := s.setIrq b) hd, debugStep_setIrq]
  exact mapNext_setIrqNext b (f := fun u => u.lateRequests inputs) (fun _ => rfl) _

end setIrq

/-- Where interrupts are masked, the step is an entry for the highest reason, or the instruction at `pc`. -/
theorem runStep_setIrq_masked {s : State} (hm : s.interruptsMasked = true) (b : Bool) (inputs : HartInputs) :
    (s.setIrq b).runStep inputs = setIrqNext b (s.runStep inputs) := by
  have hexec : mapNext (fun u => u.afterInstr inputs) (s.setIrq b).takeJump.executeAtPc =
      setIrqNext b (mapNext (fun u => u.afterInstr inputs) s.takeJump.executeAtPc) := by
    rw [takeJump_setIrq, executeAtPc_setIrq]
    exact mapNext_setIrqNext b (fun t => afterInstr_setIrq b t inputs) _
  have hsame : highest (s.setIrq b).cfg
        ((s.setIrq b).takeJump.reasonsBefore inputs (decoded (s.setIrq b).takeJump.fetch)) =
      highest s.cfg (s.takeJump.reasonsBefore inputs (decoded s.takeJump.fetch)) := by
    rw [takeJump_setIrq]
    rfl
  cases hr : highest s.cfg (s.takeJump.reasonsBefore inputs (decoded s.takeJump.fetch)) with
  | none => rw [runStep_of_masked hm hr, runStep_of_masked (s := s.setIrq b) hm (hsame.trans hr), hexec]
  | some r =>
    by_cases he : r = .ebreak
    · subst he
      rw [runStep_of_ebreak hr, runStep_of_ebreak (hsame.trans hr), hexec]
    · rw [runStep_of_other he hr, runStep_of_other he (hsame.trans hr), takeJump_setIrq]
      rfl

end Sys2Proof.Machine

namespace Sys2Proof.Claims

open Sys2Proof.Machine

/-- Settles O34: masked, a ready interrupt is not looked at, and the entry or the instruction does not depend on it. -/
theorem stepieZeroMasksInterrupts : Obligations.StepieZeroMasksInterrupts := by
  intro s inputs ready hd hs hi
  have hm : s.interruptsMasked = true := by simp [State.interruptsMasked, hs, hi]
  rw [hartStep_running hd, hartStep_running (s := { s with irqReady := ready }) hd]
  exact runStep_setIrq_masked hm ready inputs

/-- Settles O35: the step in Debug Mode does not look at interrupts at all. -/
theorem debugModeTakesNoInterrupt : Obligations.DebugModeTakesNoInterrupt :=
  fun s inputs ready hd => hartStep_setIrq_halted ready s hd inputs

end Sys2Proof.Claims

/-! Proof of `StoptimeFreezesTimeWhileHalted` (60_exceptions.md R191, R192): what `time` reads by `stoptime` and the entry's
time, and that a stay in Debug Mode keeps the entry's time and notes where `stoptime` goes from 0 to 1. -/

namespace Sys2Proof.Machine

open Claims (ResetNext StoptimeNoted)

/-! ### The value of `time` (60_exceptions.md R191) -/

theorem time_running {s : State} (hd : s.debugMode = false) : s.time = s.mtime := by
  unfold State.time
  split
  · simp [hd]
  · rfl

theorem time_not_stopped {s : State} (hs : s.dcsr.stoptime = false) : s.time = s.mtime := by
  unfold State.time
  split
  · simp [hs]
  · rfl

theorem time_stopped {s : State} {a : Nat} (hd : s.debugMode = true) (ha : s.timeAtEntry = some a)
    (hs : s.dcsr.stoptime = true) (h : s.stoptimeSetInDebug = false ∨ s.cfg.lateStoptimeDrawn = false) :
    s.time = a := by
  have hnot : (s.stoptimeSetInDebug && s.cfg.lateStoptimeDrawn) = false := by rcases h with h | h <;> simp [h]
  simp [State.time, ha, hd, hs, hnot]

theorem time_drawn {s : State} {a : Nat} (hd : s.debugMode = true) (ha : s.timeAtEntry = some a)
    (hs : s.dcsr.stoptime = true) (hn : s.stoptimeSetInDebug = true) (hl : s.cfg.lateStoptimeDrawn = true) :
    s.time = drawnTime a s.mtime s.draws := by
  simp [State.time, ha, hd, hs, hn, hl]

/-- A drawn `time` lies between the entry's and `mtime` (92_eei_decisions.md D19). -/
theorem drawnTime_mem {a m : Nat} (h : a ≤ m) (n : Nat) : a ≤ drawnTime a m n ∧ drawnTime a m n ≤ m :=
  ⟨le_max_left _ _, max_le h (min_le_left _ _)⟩

/-! ### A stay in Debug Mode -/

/-- What `time` reads by, but `mtime` and the number of the next free value, is the same. -/
structure SameTimeBase (s t : State) : Prop where
  entry     : t.timeAtEntry = s.timeAtEntry
  stoptime  : t.dcsr.stoptime = s.dcsr.stoptime
  noted     : t.stoptimeSetInDebug = s.stoptimeSetInDebug
  debugMode : t.debugMode = s.debugMode

/-- What a step that stays in Debug Mode keeps: the entry's time; `mtime` does not go back; and `stoptime` going from 0 to 1 is
noted. -/
structure StayKeeps (s t : State) : Prop where
  entry : t.timeAtEntry = s.timeAtEntry
  mtime : s.mtime ≤ t.mtime
  noted : StoptimeNoted s t

section stay
variable {s t : State}

theorem SameTimeBase.stayKeeps (h : SameTimeBase s t) (hm : s.mtime ≤ t.mtime) : StayKeeps s t where
  entry := h.entry
  mtime := hm
  noted := by simp +contextual [StoptimeNoted, h.noted, h.stoptime]

theorem StayKeeps.after {u : State} (h : StayKeeps u t) (hu : SameTimeBase s u) (hm : u.mtime = s.mtime) :
    StayKeeps s t where
  entry := h.entry.trans hu.entry
  mtime := hm ▸ h.mtime
  noted := by
    have hn := h.noted
    rwa [StoptimeNoted, hu.noted, hu.stoptime, hu.debugMode] at hn

theorem StayKeeps.before {u : State} (h : StayKeeps s u) (hu : SameTimeBase u t) (hm : t.mtime = u.mtime) :
    StayKeeps s t where
  entry := hu.entry.trans h.entry
  mtime := hm ▸ h.mtime
  noted := by
    have hn := h.noted
    rwa [StoptimeNoted, ← hu.noted, ← hu.stoptime] at hn

theorem stayKeeps_baseInstr (s : State) (bytes : List Byte) (n : Option Nat) : StayKeeps s (s.baseInstr bytes n) := by
  rcases baseInstr_cases s bytes n with ⟨-, h⟩ | h <;> rw [h] <;>
    exact SameTimeBase.stayKeeps ⟨rfl, rfl, rfl, rfl⟩ le_rfl

theorem stayKeeps_raise (s : State) (e : Exc) : StayKeeps s (s.raise e) := by
  rcases raise_cases s e with ⟨-, h⟩ | ⟨-, h⟩ <;> rw [h] <;>
    exact SameTimeBase.stayKeeps ⟨rfl, rfl, rfl, rfl⟩ le_rfl

theorem stayKeeps_writeCsr (s : State) (r : DebugCsr) (w : Word) : StayKeeps s (s.writeCsr r w) where
  entry := by cases r <;> rfl
  mtime := by cases r <;> exact le_rfl
  noted := stoptimeNoted_writeCsr s r w

theorem sameTimeBase_startProgbuf (s : State) (p : Option (List Byte)) : SameTimeBase s (s.startProgbuf p) := by
  cases p <;> exact ⟨rfl, rfl, rfl, rfl⟩

theorem startProgbuf_mtime (s : State) (p : Option (List Byte)) : (s.startProgbuf p).mtime = s.mtime := by
  cases p <;> rfl

theorem stayKeeps_execShape (hd : s.debugMode = true) (ht : t.debugMode = true) (h : ExecShape s t) : StayKeeps s t := by
  cases h with
  | base bytes n => exact stayKeeps_baseInstr s bytes n
  | illegal instr => exact stayKeeps_raise s _
  | breakpoint hf => simp [hd] at hf
  | csrRead r rd => exact SameTimeBase.stayKeeps ⟨rfl, rfl, rfl, rfl⟩ le_rfl
  | csrWrite r rd w =>
    exact (stayKeeps_writeCsr ((s.tick true false).setReg rd (s.readCsr r)) r w).after ⟨rfl, rfl, rfl, rfl⟩ rfl
  | enter hf => simp [hd] at hf
  | endProgbuf => exact SameTimeBase.stayKeeps ⟨rfl, rfl, rfl, rfl⟩ le_rfl
  | resume => cases ht

theorem StayKeeps.of_closeProgbuf (h : t.debugMode = true → StayKeeps s t) (ht : t.closeProgbuf.debugMode = true) :
    StayKeeps s t.closeProgbuf := by
  rcases closeProgbuf_cases t with hc | ⟨-, -, hc⟩
  · rw [hc] at ht ⊢
    exact h ht
  · rw [hc] at ht ⊢
    exact (h ht).before ⟨rfl, rfl, rfl, rfl⟩ rfl

theorem StayKeeps.freshScratch (h : StayKeeps s.freshScratch t) : StayKeeps s t := by
  have hf := (freshScratch_eq s).1
  exact h.after (by rw [hf]; exact ⟨rfl, rfl, rfl, rfl⟩) (by rw [hf])

theorem stayKeeps_haltedStep (hd : s.debugMode = true) (ht : t.debugMode = true) (h : s.haltedStep = .next t) :
    StayKeeps s t := by
  have hf : s.freshScratch.debugMode = true := (freshScratch_debugMode s).trans hd
  rcases haltedStep_next h with rfl | ⟨-, ⟨i, -, hi⟩ | ⟨n, rfl⟩⟩
  · exact SameTimeBase.stayKeeps ⟨rfl, rfl, rfl, rfl⟩ le_rfl
  · exact (stayKeeps_execShape hf ht (exec_shape hi)).freshScratch
  · exact (stayKeeps_baseInstr s.freshScratch _ n).freshScratch

theorem stayKeeps_progbufInstr {bytes : List Byte} (hd : s.debugMode = true) (ht : t.debugMode = true)
    (h : s.progbufInstr bytes = .next t) : StayKeeps s t := by
  rcases progbufInstr_next h with ⟨i, rest, -, hi⟩ | ⟨n, rfl⟩ | rfl
  · exact (stayKeeps_execShape (s := s.setProgbuf (some rest)) hd ht (exec_shape hi)).after ⟨rfl, rfl, rfl, rfl⟩ rfl
  · exact (stayKeeps_baseInstr (s.setProgbuf (some (bytes.drop n))) _ _).after ⟨rfl, rfl, rfl, rfl⟩ rfl
  · exact stayKeeps_raise s _

theorem stayKeeps_hartStep {inputs : HartInputs} (hd : s.debugMode = true) (ht : t.debugMode = true)
    (h : s.hartStep inputs = .next t) : StayKeeps s t := by
  rw [hartStep_halted hd] at h
  obtain ⟨u, hu, rfl⟩ := mapNext_eq_next h
  have hk : StayKeeps s u := by
    rcases debugStep_next hu with ⟨-, hh⟩ | ⟨-, rfl⟩ | ⟨bytes, v, -, hv, rfl⟩
    · exact stayKeeps_haltedStep hd ht hh
    · exact .of_closeProgbuf (fun _ => SameTimeBase.stayKeeps ⟨rfl, rfl, rfl, rfl⟩ le_rfl) ht
    · exact .of_closeProgbuf (fun hvd => stayKeeps_progbufInstr hd hvd hv) ht
  exact hk.before ⟨rfl, rfl, rfl, rfl⟩ rfl

theorem stayKeeps_move {e : Event} (hd : s.debugMode = true) (ht : t.debugMode = true) (hm : e.IsMove)
    (h : s.applyEvent e = .next t) : StayKeeps s t := by
  cases e with
  | hart inputs => exact absurd rfl (hm.1 inputs)
  | reset => exact absurd rfl hm.2
  | resumeReq =>
    rw [State.applyEvent, if_pos hd] at h
    cases h
    cases ht
  | abstractRead r p =>
    obtain ⟨-, rfl⟩ := abstractRead_next h
    have hread : SameTimeBase s (s.commandBoundary.returnToDebugger (s.commandBoundary.readCsr r)) := ⟨rfl, rfl, rfl, rfl⟩
    exact (hread.stayKeeps le_rfl).before (sameTimeBase_startProgbuf _ p) (startProgbuf_mtime _ p)
  | abstractWrite r w p =>
    obtain ⟨-, -, rfl⟩ := abstractWrite_next h
    have hwrite : StayKeeps s (s.commandBoundary.writeCsr r w) :=
      (stayKeeps_writeCsr s.commandBoundary r w).after ⟨rfl, rfl, rfl, rfl⟩ rfl
    exact hwrite.before (sameTimeBase_startProgbuf _ p) (startProgbuf_mtime _ p)
  | abstractReadDpcRunning => simp [State.applyEvent, State.abstractReadDpcRunning, hd] at h
  | abstractWriteDpcRunning w => simp [State.applyEvent, State.abstractWriteDpcRunning, hd] at h
  | execProgbuf instrs =>
    rw [State.applyEvent, if_pos hd] at h
    cases h
    exact SameTimeBase.stayKeeps ⟨rfl, rfl, rfl, rfl⟩ le_rfl
  | mtimeAdvance n =>
    cases h
    exact SameTimeBase.stayKeeps ⟨rfl, rfl, rfl, rfl⟩ (Nat.le_add_right _ n)
  | haltReq | clearHaltReq | armResetHaltReq | disarmResetHaltReq | nmi _ | haltGroup _ | interrupt _ =>
    cases h
    exact SameTimeBase.stayKeeps ⟨rfl, rfl, rfl, rfl⟩ le_rfl

theorem stayKeeps_step (hd : s.debugMode = true) (ht : t.debugMode = true) (hr : ¬ ResetNext s) (h : step s = .next t) :
    StayKeeps s t := by
  cases step_kind h with
  | reset rest hr' => exact absurd hr' hr
  | hart env inputs _ hh =>
    exact (stayKeeps_hartStep (s := s.setEnv env) hd ht hh).after ⟨rfl, rfl, rfl, rfl⟩ rfl
  | move e rest _ hm he =>
    exact (stayKeeps_move (s := s.setEnv rest) hd ht hm he).after ⟨rfl, rfl, rfl, rfl⟩ rfl

end stay

end Sys2Proof.Machine

namespace Sys2Proof.Claims

open Sys2Proof.Machine

/-- Settles O40: `time` is read off the entry's time and the note, which a stay in Debug Mode keeps. -/
theorem stoptimeFreezesTimeWhileHalted : Obligations.StoptimeFreezesTimeWhileHalted := by
  refine ⟨fun s t u v r addr n _ ht hu hv => ?_, fun s => time_running, fun s a hd ha => ⟨time_not_stopped,
    fun hs => time_stopped hd ha hs, fun hs hn hl hle => ?_⟩, fun s t h hd ht hr => ?_⟩
  · subst ht
    cases hu
    cases hv
    refine ⟨?_, ?_, time_running rfl⟩
    · cases hs : s.dcsr.stoptime with
      | true => exact time_stopped rfl rfl hs (.inl rfl)
      | false => exact time_not_stopped hs
    · cases hs : s.dcsr.stoptime with
      | true => exact time_stopped rfl rfl hs (.inl rfl)
      | false => exact time_not_stopped hs
  · rw [time_drawn hd ha hs hn hl]
    exact drawnTime_mem hle _
  · have hk := stayKeeps_step hd ht hr h
    refine ⟨hk.entry, hk.mtime, hk.noted, fun a ha hs0 hs1 => ?_⟩
    have hta : t.timeAtEntry = some a := hk.entry.trans ha
    have hnoted : t.stoptimeSetInDebug = true := hk.noted.mpr (.inr ⟨hd, hs0, hs1⟩)
    rw [← step_cfg h]
    refine ⟨fun hl => time_stopped ht hta hs1 (.inr hl), fun hl hle => ?_⟩
    rw [time_drawn ht hta hs1 hnoted hl]
    exact drawnTime_mem (hle.trans hk.mtime) _

end Sys2Proof.Claims

/-! Proofs of `ResetLeavesResetValues` and `ArmedResetHaltsTheHart` (70_reset_and_hazards.md R200, R202): what the reset itself
leaves, and whether an entry into Debug Mode at the reset `pc` follows it. -/

namespace Sys2Proof.Machine

section resetCore
variable (s : State)

/-! ### What the reset itself leaves (70_reset_and_hazards.md R200) -/

@[simp] theorem State.resetCore_dcsr : s.resetCore.dcsr = Dcsr.reset s.cfg := rfl
@[simp] theorem State.resetCore_debugMode : s.resetCore.debugMode = false := rfl
@[simp] theorem State.resetCore_trigAfterPending : s.resetCore.trigAfterPending = false := rfl
@[simp] theorem State.resetCore_nmip : s.resetCore.nmip = s.nmiPending := rfl
@[simp] theorem State.resetCore_mtime : s.resetCore.mtime = s.mtime := rfl
@[simp] theorem State.resetCore_base_pc : s.resetCore.base.pc = instrAddress s.cfg s.cfg.resetPc := rfl
@[simp] theorem State.resetCore_base_priv : s.resetCore.base.priv = 3 := rfl
@[simp] theorem State.resetCore_base_virt : s.resetCore.base.virt = false := rfl

/-- The free value that `dpc` takes at reset is an instruction address (10_state.md R39). -/
theorem isInstrAddress_resetCore_dpc : IsInstrAddress s.cfg s.resetCore.dpc :=
  instrAddress_instrAddress s.cfg (s.draw .resetDpc)

end resetCore

/-! ### The entry after it (70_reset_and_hazards.md R202) -/

/-- With the request not armed no entry into Debug Mode follows the reset. -/
theorem resetEvent_unarmed {s : State} (ha : s.resethaltArmed = false) : s.resetEvent = s.resetCore := by
  rcases resetEvent_cases s with h | ⟨harmed, -, -⟩
  · exact h
  · simp [ha] at harmed

/-- An entry that follows the reset saves the reset `pc`, before an instruction is executed. -/
theorem resetEvent_dpc_of_debugMode {s : State} (hd : s.resetEvent.debugMode = true) :
    s.resetEvent.dpc = instrAddress s.cfg s.cfg.resetPc := by
  rcases resetEvent_cases s with h | ⟨-, -, h⟩
  · simp [h] at hd
  · simp [h]

end Sys2Proof.Machine

namespace Sys2Proof.Claims

open Sys2Proof.Machine

/-- Settles O42: the reset ends in Debug Mode, which only the entry at the reset `pc` brings about. -/
theorem armedResetHaltsTheHart : Obligations.ArmedResetHaltsTheHart := by
  intro s ha ho
  obtain ⟨hdebug, -, hdcsr⟩ := resetEvent_armed ha ho
  exact ⟨s.resetEvent, rfl, hdebug, hdcsr, resetEvent_dpc_of_debugMode hdebug⟩

/-- Settles O41: without an entry the state is the one the reset itself leaves. -/
theorem resetLeavesResetValues : Obligations.ResetLeavesResetValues := by
  intro s ha
  have hnext : s.applyEvent .reset = .next s.resetCore := by rw [State.applyEvent, resetEvent_unarmed ha]
  exact ⟨s.resetCore, hnext, s.resetCore_debugMode, s.resetCore_dcsr, s.resetCore_base_priv, s.resetCore_base_virt,
    s.resetCore_base_pc, isInstrAddress_resetCore_dpc s, s.resetCore_trigAfterPending, s.resetCore_nmip, s.resetCore_cfg,
    s.resetCore_mtime⟩

end Sys2Proof.Claims

/-! Proofs of `UnmentionedScratchWriteIsRefused`, `StopcountFreezesCountersInDebugMode`, `RunningDpcWriteMakesTheProgramJump` and
`ResetIsSound`: which forms of a CSR instruction are refused (70_reset_and_hazards.md R212), that every instruction of this spec
counts by the `stopcount` from before it (60_exceptions.md R190), how a jump comes due (10_state.md R43), and the reset state. -/

namespace Sys2Proof.Machine

open Claims (EbreakOf CountersFrozen JumpDue)

/-! ### A write that the debugger may not make (70_reset_and_hazards.md R212) -/

/-- The scratch registers that `hartinfo` does not mention (10_state.md R47). -/
theorem mentioned_eq_false_iff (c : Config) (r : DebugCsr) :
    mentioned c r = false ↔ (r = .dscratch0 ∧ c.nscratch.val = 0) ∨ (r = .dscratch1 ∧ c.nscratch.val < 2) := by
  cases r <;> simp [mentioned]

/-- Of the debugger's own instructions only those on a mentioned register may write. -/
theorem mayWrite_progbuf {s : State} (hp : s.progbuf.isSome = true) (r : DebugCsr) :
    s.mayWrite r = mentioned s.cfg r := by
  simp [State.mayWrite, Option.isNone_eq_false_iff.mpr hp]

/-- An access that passes the check is refused exactly where it makes a write that is not allowed. -/
theorem csrInstr_refused_iff {s : State} {r : DebugCsr} (ha : s.csrAccessible r = true) (i : Instr) (rd : Reg) (op : CsrOp)
    (w : Word) (writes : Bool) :
    csrInstr i rd (csrAddress r) op w writes s = .refused .scratchNotMentioned ↔
      writes = true ∧ s.mayWrite r = false := by
  cases writes with
  | false => simp [csrInstr, csrAt_csrAddress, ha]
  | true => cases hm : s.mayWrite r <;> simp [csrInstr, csrAt_csrAddress, ha, hm]

/-- Of the six forms those that write are refused: all but set and clear with `x0` or 0 (40_csr_access.md R117 to R121). -/
theorem exec_csrForms_refused_iff {s : State} {i : Instr} {rd rs1 : Reg} {u : Uimm} {r : DebugCsr}
    (ha : s.csrAccessible r = true) (hm : s.mayWrite r = false)
    (hi : i ∈ Claims.csrForms rd (csrAddress r) rs1 u) :
    exec i s = .refused .scratchNotMentioned ↔
      i ≠ .csrrs rd (csrAddress r) 0 ∧ i ≠ .csrrc rd (csrAddress r) 0 ∧
      i ≠ .csrrsi rd (csrAddress r) 0 ∧ i ≠ .csrrci rd (csrAddress r) 0 := by
  have hrefused (op : CsrOp) (w : Word) (writes : Bool) :
      csrInstr i rd (csrAddress r) op w writes s = .refused .scratchNotMentioned ↔ writes = true := by
    simp [csrInstr_refused_iff ha, hm]
  simp only [Claims.csrForms, List.mem_cons, List.not_mem_nil, or_false] at hi
  rcases hi with rfl | rfl | rfl | rfl | rfl | rfl <;> refine (hrefused ..).trans ?_ <;> simp

theorem abstractWrite_unmentioned {s : State} {r : DebugCsr} (ha : s.csrAccessible r = true)
    (hm : mentioned s.cfg r = false) (w : Word) (p : Option (List Byte)) :
    s.abstractWrite r w p = .refused .scratchNotMentioned := by
  obtain ⟨hd, hp⟩ := Bool.and_eq_true _ _ ▸ ha
  simp [State.abstractWrite, hd, hp, hm]

/-! ### Counting in Debug Mode (60_exceptions.md R190) -/

/-- The CSR addresses of this spec are those of the four registers (30_encoding.md R99). -/
theorem exists_csrAddress_of_ofThisSpec {csr : CsrAddr} (h : CsrAddr.ofThisSpec csr = true) : ∃ r, csr = csrAddress r := by
  obtain ⟨hlo, hhi⟩ : 0x7b0#12 ≤ csr ∧ csr ≤ 0x7b3#12 := of_decide_eq_true h
  have hcases : csr = 0x7b0 ∨ csr = 0x7b1 ∨ csr = 0x7b2 ∨ csr = 0x7b3 := by bv_omega
  rcases hcases with rfl | rfl | rfl | rfl
  · exact ⟨.dcsr, rfl⟩
  · exact ⟨.dpc, rfl⟩
  · exact ⟨.dscratch0, rfl⟩
  · exact ⟨.dscratch1, rfl⟩

/-- What a CSR instruction on one of the four registers can do: raise the exception, or read, or read and then write. -/
theorem csrInstr_debugCsr_next {i : Instr} {rd : Reg} {r : DebugCsr} {op : CsrOp} {w : Word} {writes : Bool} {s t : State}
    (h : csrInstr i rd (csrAddress r) op w writes s = .next t) :
    t = s.raise (.illegalInstruction (encode i)) ∨ t = csrRead s rd r ∨ ∃ v, t = (csrRead s rd r).writeCsr r v := by
  simp only [csrInstr, csrAt_csrAddress] at h
  split at h
  · split at h
    · cases h
    · cases h
      split
      · exact .inr (.inr ⟨_, rfl⟩)
      · exact .inr (.inl rfl)
  · cases h
    exact .inl rfl

section counting
variable {s : State} (hd : s.debugMode = true) (hs : s.dcsr.stopcount = true)
include hd hs

theorem countersFrozen_tick_halted (mayRetire : Bool) : CountersFrozen s (s.tick mayRetire false) :=
  countersFrozen_tick (countersFrozen_halted hd hs false) mayRetire

theorem countersFrozen_raise_halted (e : Exc) : CountersFrozen s (s.raise e) := by
  rcases raise_cases s e with ⟨-, h⟩ | ⟨hf, -⟩
  · rw [h]
    exact countersFrozen_tick_halted hd hs false
  · simp [hd] at hf

/-- The access counts before its own write takes effect (20_memory.md R83), and the write of `rd` is no count. -/
theorem countersFrozen_csrRead (rd : Reg) (r : DebugCsr) : CountersFrozen s (csrRead s rd r) := by
  simpa [CountersFrozen, csrRead] using countersFrozen_tick_halted hd hs true

theorem countersFrozen_csrInstr {i : Instr} {rd : Reg} {csr : CsrAddr} {op : CsrOp} {w : Word} {writes : Bool} {t : State}
    (hcsr : CsrAddr.ofThisSpec csr = true) (h : csrInstr i rd csr op w writes s = .next t) : CountersFrozen s t := by
  obtain ⟨r, rfl⟩ := exists_csrAddress_of_ofThisSpec hcsr
  rcases csrInstr_debugCsr_next h with rfl | rfl | ⟨v, rfl⟩
  · exact countersFrozen_raise_halted hd hs _
  · exact countersFrozen_csrRead hd hs rd r
  · rw [CountersFrozen, State.writeCsr_base]
    exact countersFrozen_csrRead hd hs rd r

theorem countersFrozen_ebreak {i : Instr} {t : State} (hi : EbreakOf s i) (h : exec i s = .next t) :
    CountersFrozen s t := by
  rw [exec_ebreak_halted hi hd] at h
  cases h
  exact countersFrozen_tick_halted hd hs true

end counting

/-! ### The jump of a `dpc` write while running (10_state.md R43) -/

theorem takeJump_of_due {s : State} {w : Word} (h : s.pendingJump = some (0, w)) :
    s.takeJump = { s with
      base := { s.base with pc := dpcLegalize s.cfg w }, pendingJump := none, pcHistory := s.base.pc :: s.pcHistory } := by
  rw [State.takeJump, h]

theorem takeJump_of_pending {s : State} {n : Nat} {w : Word} (h : s.pendingJump = some (n + 1, w)) : s.takeJump = s :=
  takeJump_of_not_due (by simp [JumpDue, h])

theorem abstractWriteDpcRunning_eq {s : State} (hd : s.debugMode = false) (hc : s.cfg.absDpcWriteRunning = true) (w : Word) :
    s.abstractWriteDpcRunning w =
      .next { s with pendingJump := some (Config.jumpDelay s.draws, w), draws := s.draws + 1 } := by
  simp [State.abstractWriteDpcRunning, hd, hc]

/-- Once the jump is made none is due. -/
@[simp] theorem takeJump_takeJump (s : State) : s.takeJump.takeJump = s.takeJump := by
  rcases takeJump_cases s with h | ⟨w, -, h⟩
  · rw [h, h]
  · rw [h]
    rfl

/-- The jump is made before anything else in the step. -/
theorem hartStep_takeJump {s : State} (hd : s.debugMode = false) (inputs : HartInputs) :
    s.takeJump.hartStep inputs = s.hartStep inputs := by
  rw [hartStep_running hd, hartStep_running ((takeJump_debugMode s).trans hd)]
  simp only [State.runStep, takeJump_takeJump]

/-- A step that ends outside Debug Mode brings a pending jump one instruction closer. -/
theorem afterInstr_pendingJump {u : State} {inputs : HartInputs} (h : (u.afterInstr inputs).debugMode = false) :
    u.debugMode = false ∧
    (u.afterInstr inputs).pendingJump = u.pendingJump.map fun (j : Nat × Word) => (j.1 - 1, j.2) := by
  rcases afterInstr_cases u inputs with ⟨hd, ha⟩ | ⟨hd, v, rfl, ha | ⟨-, r, -, ha⟩⟩
  · simp [ha, hd] at h
  · exact ⟨hd, by rw [ha]⟩
  · simp [ha] at h

/-- An instruction that goes on running leaves a pending jump to the end of the step. -/
theorem executeAtPc_pendingJump {s u : State} (hd : s.debugMode = false) (h : s.executeAtPc = .next u)
    (hu : u.debugMode = false) : u.pendingJump = s.pendingJump := by
  rw [executeAtPc_running hd h hu]
  rfl

/-- What a running step that goes on running makes of the jump that was pending after a due one was made. -/
theorem hartStep_pendingJump {s t : State} {inputs : HartInputs} (hd : s.debugMode = false)
    (h : s.hartStep inputs = .next t) (ht : t.debugMode = false) :
    t.pendingJump = s.takeJump.pendingJump.map fun (j : Nat × Word) => (j.1 - 1, j.2) := by
  have hjd : s.takeJump.debugMode = false := (takeJump_debugMode s).trans hd
  rw [hartStep_running hd] at h
  rcases runStep_next h with ⟨r, -, rfl⟩ | ⟨u, hu, rfl⟩ | ⟨-, -, rfl | ⟨u, hu, rfl⟩⟩
  · simp at ht
  · obtain ⟨hud, hjump⟩ := afterInstr_pendingJump ht
    rw [hjump, executeAtPc_pendingJump hjd hu hud]
  · exact (afterInstr_pendingJump ht).2
  · obtain ⟨hud, hjump⟩ := afterInstr_pendingJump ht
    rw [hjump, executeAtPc_pendingJump (s := s.takeJump.takeInterrupt) hjd hu hud, State.takeInterrupt_pendingJump]

/-! ### The state after reset (10_state.md section 8) -/

theorem isInstrAddress_zero (c : Config) : IsInstrAddress c 0 := by
  unfold IsInstrAddress instrAddress clearLowBits
  rw [trunc_zero]
  split <;> rfl

theorem TrapRegs.fits_zero (c : Config) : ({} : TrapRegs).Fits c := by
  rw [TrapRegs.Fits, TrapRegs.trunc, trunc_zero]

theorem sound_baseReset (c : Config) : (Base.reset c).Sound c where
  x0 := rfl
  x r := by
    have hx : (Base.reset c).x[r] = 0 := by simp [Base.reset]
    rw [Fits, hx, trunc_zero]
  pc := trunc_instrAddress _ _
  mode := supported_machineMode c
  trapM := TrapRegs.fits_zero c
  trapS := TrapRegs.fits_zero c
  trapVS := TrapRegs.fits_zero c
  mem := List.Pairwise.nil
  memTop := nofun

/-- Out of reset a hart of any configuration is sound. -/
theorem sound_resetOf (c : Config) : (State.resetOf c).Sound where
  dcsr := legal_reset c
  base := sound_baseReset c
  dpc := isInstrAddress_zero c
  scratch0 := trunc_zero c
  scratch1 := trunc_zero c
  pc _ := instrAddress_instrAddress _ _
  cause := nofun
  entered := nofun
  time := nofun
  progbuf _ := rfl
  trigHalt := nofun
  trigNone _ := rfl

end Sys2Proof.Machine

namespace Sys2Proof.Claims

open Sys2Proof.Machine

/-- Settles O8: on a register that is not mentioned the forms that write are refused, and so is the abstract write. -/
theorem unmentionedScratchWriteIsRefused : Obligations.UnmentionedScratchWriteIsRefused := by
  intro s rd rs1 u r w ha hr
  have hm : mentioned s.cfg r = false := (mentioned_eq_false_iff s.cfg r).mpr hr
  exact ⟨fun hp i hi => exec_csrForms_refused_iff ha ((mayWrite_progbuf hp r).trans hm) hi,
    abstractWrite_unmentioned ha hm w none⟩

/-- Settles O39: each instruction is one count in Debug Mode, made before its effect. -/
theorem stopcountFreezesCountersInDebugMode : Obligations.StopcountFreezesCountersInDebugMode := by
  intro s t i hd hs hw he h
  cases i with
  | csrrw | csrrs | csrrc | csrrwi | csrrsi | csrrci => exact countersFrozen_csrInstr hd hs hw h
  | ebreak => exact countersFrozen_ebreak hd hs (.inl rfl) h
  | cEbreak => exact countersFrozen_ebreak hd hs (.inr ⟨rfl, of_decide_eq_true he⟩) h
  | dret =>
    rw [exec_dret_halted hd he] at h
    cases h
    exact countersFrozen_tick_halted hd hs true

/-- Settles O50: the count goes down at the end of a step, and at zero the jump is made before anything else in it. -/
theorem runningDpcWriteMakesTheProgramJump : Obligations.RunningDpcWriteMakesTheProgramJump := by
  refine ⟨fun s w hd hc => ?_, fun s t inputs n w hd hj h ht => ?_, fun s inputs w hd hj => ?_,
    fun s t inputs w hd hj hr h => ?_⟩
  · exact ⟨_, Config.jumpDelay s.draws, abstractWriteDpcRunning_eq hd hc w, rfl, rfl⟩
  · simpa [takeJump_of_pending hj, hj] using hartStep_pendingJump hd h ht
  · rw [← hartStep_takeJump hd, takeJump_of_due hj]
  · obtain ⟨t', ht', -, -, hdpc, -, -, -, hframe, -⟩ := hartStep_of_highest hd hr
    cases ht'.symm.trans h
    refine ⟨by rw [hdpc, takeJump_of_due hj], (congrArg State.pendingJump hframe).trans ?_⟩
    rw [takeJump_of_due hj]
    rfl

/-- Settles O59: the hart of 95_test_vectors.md is one hart out of reset. -/
theorem resetIsSound : Obligations.ResetIsSound := sound_resetOf Config.standard

end Sys2Proof.Claims
